-- ==== Sys2Proof/Word.lean ====
section
/-! DEFINITION. The word types of the LS4096 (00_scope.md, "Registers"; 07_lay_machine.md, "Cells and accumulators"):
32-bit registers and program words, 24-bit data cells, 56-bit accumulators, bytes, 13-bit program addresses. -/

namespace Sys2Proof

/-- A register, or a word of the program store. -/
abbrev Word := BitVec 32
/-- A data cell. -/
abbrev Cell := BitVec 24
/-- An accumulator. -/
abbrev Acc := BitVec 56
/-- A byte on a bus or in external memory. -/
abbrev Byte := BitVec 8
/-- A program word address. -/
abbrev PAddr := BitVec 13

end Sys2Proof
end

