-- ==== Sys2Proof/Syntax.lean ====
section
/-! DEFINITION. The commands of the LS4096: one constructor per row of the opcode table, with the row's operands, and
the types of those operands. -/

namespace Sys2Proof

/-- Who makes a register access (R270, R884): the two-wire bus, the rope, your Slack program, the Lay, or a ROM
micro-routine. -/
inductive Source where
  | twb | rope | slack | lay | rom
  deriving DecidableEq, Repr

/-- An instruction's operand fields (Tables 8.1, 8.2): AUX, X and Y of the short form; FP, LANE, XS, RND, SAT, TRK, C1,
FM, FPL and C2 of the long form. The row gives the opcode, but for a long form whose opcode no row has (R409): it is
given by its first word. -/
inductive Form where
  | short (aux : BitVec 2) (x y : BitVec 12)
  | long (fp lane : BitVec 2) (xs : Bool) (rnd sat : BitVec 2) (trk : Bool) (c1 : BitVec 12) (fm : BitVec 3)
      (fpl : BitVec 20) (c2 : BitVec 12)
  | reserved (w : Word)
  deriving DecidableEq, Repr

/-- The 16 conversions of the three reads of each strap pin, in the order MS, CFG0 to CFG3, BIN0, BIN1 (R115, R117). -/
abbrev StrapReads := Vector (Vector (Vector (BitVec 12) 16) 3) 7

/-- What a cold start finds at the pins: the strap conversions, TEST (R75) and FS0 to FS2. -/
structure Boot where
  straps : StrapReads
  test   : Bool
  fs     : BitVec 3
  deriving DecidableEq, Repr

/-- What SFDP says of one read mode (R579, R580): the opcodes of its read and of its page program, the dummy cycles of
the read, the highest clock in kHz, whether addresses have 4 bytes, and the commands that must be sent before the mode is
used (Quad Enable, octal DDR), first command first. -/
structure SfdpMode where
  read  : Byte
  prog  : Byte
  dummy : BitVec 5
  khz   : Nat
  addr4 : Bool
  entry : List (List Byte)
  deriving DecidableEq, Repr

/-- What the SFDP header and tables of device 0 hold (R578 to R580): the density in bytes, and the modes 8D-8D-8D,
1S-4S-4S and 1S-1S-4S where they are supported, and 1S-1S-1S. -/
structure Sfdp where
  density : Nat
  octal   : Option SfdpMode
  quadIo  : Option SfdpMode
  quadOut : Option SfdpMode
  single  : SfdpMode
  deriving DecidableEq, Repr

/-- A frame sync at a port's pin: how many bit clocks it is high, and how many a port frame has, from its rising edge to
the next. -/
structure SyncIn where
  high   : Nat
  length : Nat
  deriving DecidableEq, Repr

/-- What the ports bring to a frame tick (R22): sense and Port B samples, ratios and buffer fills of the converters,
levels at the GPIO pins, and the frame sync at BFS and AFS where they show edges. -/
structure TickIn where
  sense    : Vector Cell 8
  audB     : Vector Cell 8
  ratioIn  : Word
  ratioOut : Word
  heldIn   : BitVec 6
  heldOut  : BitVec 6
  gpio     : Byte
  bSync    : Option SyncIn
  aSync    : Option SyncIn
  deriving DecidableEq, Repr

/-- A register write that a command carries: its source and value. -/
structure RegWrite where
  src : Source
  val : Word
  deriving DecidableEq, Repr

/-- The samples of one character on LRX (R726): three per bit of the start bit, the data bits, the parity bit and the
final stop bit. -/
structure CharSamples where
  start  : BitVec 3
  data   : Vector (BitVec 3) 8
  parity : BitVec 3
  stop   : BitVec 3
  deriving DecidableEq, Repr

/-- A write on the two-wire command plane (R684): whether the code asks for PEC, the data bytes, and the PEC byte that
follows them, if one is sent. -/
structure TwbWrite where
  pec     : Bool
  data    : List Byte
  pecByte : Option Byte
  deriving DecidableEq, Repr

/-- What a target did in a controller transfer that reached its data (R709, R713): a data byte not acknowledged, or the
bytes read and the PEC byte received. -/
structure TwbEnd where
  nack : Bool
  data : Vector Byte 32
  pec  : Byte
  deriving DecidableEq, Repr

/-- An exchange that a manager makes with this device (R644, R646): its words from the header on, further bits beyond a
whole word, the slot and frame of the RSS# fall, and the slot of the last bit. -/
structure Exchange where
  words     : List Word
  extra     : BitVec 5
  fallSlot  : BitVec 14
  fallFrame : Word
  endSlot   : BitVec 14
  deriving DecidableEq, Repr

/-- What an enumeration finds at one select code (R672): no worker, or its NODE and unique identity; and the MS code that
its reply gives (R664). -/
structure Found where
  code  : Byte
  reply : Option (Byte × Word × Word)
  ms    : BitVec 4
  deriving DecidableEq, Repr

/-- The feed registers of a Whipping unit (R841). -/
inductive FeedReg where
  | feed8 | feed16 | feed32
  deriving DecidableEq, Repr

/-- One temperature measurement (R817): the die in 0.1 °C, its ADC reading, and the two NTC readings. -/
structure Thermal where
  tj   : Int
  raw  : BitVec 12
  ntc0 : BitVec 12
  ntc1 : BitVec 12
  deriving DecidableEq, Repr

/-- The commands: one constructor per row of the opcode table. -/
inductive Instr where
  /-- POWER_ON_RESET_RELEASE (R177). -/
  | powerOnResetRelease (b : Boot)
  /-- POWER_LOSS (R84). -/
  | powerLoss
  /-- RESET_PIN_PULSE (R108). -/
  | resetPinPulse (b : Boot)
  /-- SUPPLY_LOW (R85). -/
  | supplyLow
  /-- THERMAL_SHUTDOWN (R111). -/
  | thermalShutdown
  /-- FS_INPUT_CHANGE (R829). -/
  | fsInputChange (levels : BitVec 3)
  /-- REFERENCE_QUALIFIED (R217). -/
  | referenceQualified (code : BitVec 3)
  /-- NO_REFERENCE (R154). -/
  | noReference
  /-- PLL_LOCK (R56). -/
  | pllLock
  /-- PLL_NO_LOCK (R154). -/
  | pllNoLock
  /-- START_ATTEMPT (R168). -/
  | startAttempt (bistOk : Bool) (sfdp : Option Sfdp)
  /-- ROPE_NO_IMAGE (R170). -/
  | ropeNoImage
  /-- START_WINDOW_CLOSE (R182). -/
  | startWindowClose
  /-- FRAME_TICK (R22). -/
  | frameTick (t : TickIn)
  /-- LIGHT_TICK (R49). -/
  | lightTick
  /-- ENTER_HOLDOVER (R446). -/
  | enterHoldover
  /-- HOLDOVER_TIMEOUT (R449). -/
  | holdoverTimeout
  /-- FRAME_OVERRUN (R43). -/
  | frameOverrun
  /-- SLACK_WATCHDOG (R464). -/
  | slackWatchdog
  /-- NOP (R409). -/
  | nop (f : Form)
  /-- MOV (R411). -/
  | mov (f : Form)
  /-- ADD (R411). -/
  | add (f : Form)
  /-- SUB (R411). -/
  | sub (f : Form)
  /-- NEG (R411). -/
  | neg (f : Form)
  /-- ABS (R411). -/
  | abs (f : Form)
  /-- AND (R411). -/
  | and (f : Form)
  /-- OR (R411). -/
  | or (f : Form)
  /-- XOR (R411). -/
  | xor (f : Form)
  /-- NOT (R411). -/
  | not (f : Form)
  /-- SHL (R411). -/
  | shl (f : Form)
  /-- SHR (R411). -/
  | shr (f : Form)
  /-- SHRL (R411). -/
  | shrl (f : Form)
  /-- CMP (R411). -/
  | cmp (f : Form)
  /-- TST (R411). -/
  | tst (f : Form)
  /-- MIN (R411). -/
  | min (f : Form)
  /-- MAX (R411). -/
  | max (f : Form)
  /-- MPY (R416). -/
  | mpy (f : Form)
  /-- MAC (R416). -/
  | mac (f : Form)
  /-- MSU (R416). -/
  | msu (f : Form)
  /-- MULTIPLY_COMPLETE (R343). -/
  | multiplyComplete
  /-- LDA (R419). -/
  | lda (f : Form)
  /-- STA (R420). -/
  | sta (f : Form)
  /-- CLRA (R421). -/
  | clra (f : Form)
  /-- SCALE (R415). -/
  | scale (f : Form)
  /-- BXCLR (R356). -/
  | bxclr (f : Form)
  /-- B_CC (R422). -/
  | bcc (f : Form)
  /-- CALL (R366). -/
  | call (f : Form)
  /-- RET (R366). -/
  | ret (f : Form)
  /-- LOOP (R423). -/
  | loop (f : Form)
  /-- END (R26). -/
  | endLay (f : Form)
  /-- MODE (R408). -/
  | mode (f : Form)
  /-- YIELD (R425). -/
  | yield (f : Form)
  /-- MOVI (R411). -/
  | movi (f : Form)
  /-- CLAMP (R412). -/
  | clamp (f : Form)
  /-- LERP (R413). -/
  | lerp (f : Form)
  /-- TLU (R414). -/
  | tlu (f : Form)
  /-- SPLC (R426). -/
  | splc (f : Form)
  /-- EVT (R427). -/
  | evt (f : Form)
  /-- STRAND_WRITE_BACK (R269). -/
  | strandWriteBack
  /-- MAP_WALK (R299): late says that the memory of an external table does not answer in time. -/
  | mapWalk (va : BitVec 24) (late : Bool := false)
  /-- EXTERNAL_PAGE_READ (R305). -/
  | externalPageRead (va : BitVec 24) (late : Bool)
  /-- ECC_WRITE_BACK (R271). -/
  | eccWriteBack
  /-- LOG_ENTRY_WRITE (R456). -/
  | logEntryWrite
  /-- LOG_FREEZE_EXPIRE (R459). -/
  | logFreezeExpire
  /-- SLACK_STARVED (R334). -/
  | slackStarved
  /-- EVENT_TAKE (R333). -/
  | eventTake
  /-- MODE_REQ_QUIESCE (R202). -/
  | modeReqQuiesce (src : Source) (standby : Bool)
  /-- MODE_REQ_WORKSHOP (R205). -/
  | modeReqWorkshop (src : Source)
  /-- MODE_REQ_RESUME (R162). -/
  | modeReqResume (src : Source)
  /-- MODE_REQ_WORKSHOP_RUN (R214). -/
  | modeReqWorkshopRun (src : Source)
  /-- MODE_REQ_WORKSHOP_RESTART (R159). -/
  | modeReqWorkshopRestart (src : Source)
  /-- MODE_REQ_STANDBY_DORMANT (R159). -/
  | modeReqStandbyDormant (src : Source)
  /-- MODE_REQ_STANDBY_RAISE (R159). -/
  | modeReqStandbyRaise (src : Source) (four : Bool)
  /-- LEAVE_LIMP_RESTART (R192). -/
  | leaveLimpRestart (src : Source)
  /-- LEAVE_LIMP_WORKSHOP (R193). -/
  | leaveLimpWorkshop (src : Source)
  /-- LEAVE_LIMP_DORMANT (R194). -/
  | leaveLimpDormant (src : Source)
  /-- SYS_RESET (R163). -/
  | sysReset (src : Source)
  /-- QUIESCE_COMPLETE (R203). -/
  | quiesceComplete
  /-- SYS_FRAME_WRITE (R58). -/
  | sysFrameWrite (src : Source) (v : Word)
  /-- CLK_NUDGE_WRITE (R66). -/
  | clkNudgeWrite (src : Source) (v : Word)
  /-- BUDGET_REGISTER_WRITE (R41). -/
  | budgetRegisterWrite (src : Source) (walk : Bool) (v : Word)
  /-- RATE_WRITE (R20). -/
  | rateWrite (src : Source) (v : Word)
  /-- STEP_WRITE (R206). -/
  | stepWrite (src : Source) (v : Word)
  /-- MAP_L1_BASE_WRITE (R297). -/
  | mapL1BaseWrite (src : Source) (v : Word)
  /-- INVALIDATE_ALL (R312). -/
  | invalidateAll (src : Source)
  /-- INVALIDATE_VPN (R312). -/
  | invalidateVpn (src : Source) (vpn : BitVec 12)
  /-- PIN_PAGE (R315). -/
  | pinPage (src : Source) (vpn : BitVec 12)
  /-- LOG_CLEAR (R458). -/
  | logClear (src : Source)
  /-- WATCHDOG_KICK (R463). -/
  | watchdogKick (src : Source)
  /-- STAGE_PTR_WRITE (R487). -/
  | stagePtrWrite (src : Source) (v : Word)
  /-- STAGE_DATA_WRITE (R481). -/
  | stageDataWrite (src : Source) (v : Word)
  /-- COMMIT_WRITE (R493). -/
  | commitWrite (src : Source) (frame : Word)
  /-- SPLICE_CANCEL (R490). -/
  | spliceCancel (src : Source)
  /-- ZC_TIMEOUT (R509). -/
  | zcTimeout (ch : Fin 16)
  /-- BACKFILL_COMPLETE (R486). -/
  | backfillComplete
  /-- OWNERSHIP_LAPSE (R491). -/
  | ownershipLapse
  /-- SYS_OWNER_WRITE (R878). -/
  | sysOwnerWrite (src : Source) (v : Word)
  /-- REGISTER_WRITE (R270): rivals are the writes of other sources to the same register in the same core clock. -/
  | registerWrite (src : Source) (page : BitVec 8) (index : BitVec 6) (v : Word) (rivals : List RegWrite := [])
  /-- MONITOR_WINDOW_END (R225): the pair's deviation, and what each other source measures against the primary (R239), by
  source code, in 0.1 ppm. -/
  | monitorWindowEnd (dev : Int) (others : List (Nat × Int) := [])
  /-- SOURCE_LOST (R226). -/
  | sourceLost (code : BitVec 3) (rc : Bool)
  /-- PLL_SLEW_LOCK (R234). -/
  | pllSlewLock (offset : Int)
  /-- REFERENCE_REVERT (R239). -/
  | referenceRevert (code : BitVec 3)
  /-- START_PULSE (R659). -/
  | startPulse
  /-- WAKE (R249). -/
  | wake (srcs : BitVec 8)
  /-- WAKE_TIMER (R248). -/
  | wakeTimer
  /-- WAKE_PULSE (R255). -/
  | wakePulse (w : Option RegWrite)
  /-- WAKE_PULSE_END (R255). -/
  | wakePulseEnd
  /-- LIN_WAKE_SEND (R757). -/
  | linWakeSend (w : Option RegWrite) (lrxDominant : Bool)
  /-- LIN_WAKE_END (R261). -/
  | linWakeEnd (lrxDominant : Bool)
  /-- LIN_WAKE_RETRY (R262). -/
  | linWakeRetry (lrxDominant : Bool)
  /-- LIN_BUS_IDLE (R246). -/
  | linBusIdle
  /-- UART_CHARACTER (R726). -/
  | uartCharacter (c : CharSamples)
  /-- HAL_BUF_WRITE (R733). -/
  | halBufWrite (src : Source) (v : Word)
  /-- HAL_BUF_READ (R733). -/
  | halBufRead (src : Source)
  /-- LIN_BREAK (R735). -/
  | linBreak (bits : BitVec 8)
  /-- LIN_SYNC (R736). -/
  | linSync (b : Byte) (clocks : BitVec 32) (badStop : Bool := false)
  /-- LIN_PID (R737). -/
  | linPid (pid : Byte) (badStop : Bool := false)
  /-- PARAM_IN (R746). -/
  | paramIn
  /-- TRIGGER (R748). -/
  | trigger
  /-- GO_TO_SLEEP (R749). -/
  | goToSleep
  /-- LIN_PUBLISH (R744). -/
  | linPublish (bitErr : Bool)
  /-- NO_RESP (R743). -/
  | noResp
  /-- TRIGGER_TIMEOUT (R748). -/
  | triggerTimeout
  /-- PARAM_RETRY (R747). -/
  | paramRetry
  /-- TWB_CMD_IDENT (R686). -/
  | twbCmdIdent (pec : Bool) (n : BitVec 6)
  /-- TWB_CMD_STATUS (R686). -/
  | twbCmdStatus (pec : Bool) (plain : Bool) (n : BitVec 6)
  /-- TWB_CMD_REASON (R686). -/
  | twbCmdReason (pec : Bool) (n : BitVec 6)
  /-- TWB_CMD_MODE (R686). -/
  | twbCmdMode (t : TwbWrite)
  /-- PARAM_SET (R693). -/
  | paramSet (t : TwbWrite)
  /-- PARAM_GET (R694). -/
  | paramGet (t : TwbWrite)
  /-- TWB_CMD_REPLY (R692). -/
  | twbCmdReply (pec : Bool) (n : BitVec 6)
  /-- SLACK_COMMAND_DONE (R691). -/
  | slackCommandDone
  /-- POINTER_PLANE_WRITE (R695). -/
  | pointerPlaneWrite (data : List Byte)
  /-- POINTER_PLANE_READ (R699). -/
  | pointerPlaneRead (n : BitVec 10)
  /-- BULK_CHUNK (R560). -/
  | bulkChunk (data : List Byte) (late : Option Nat := none)
  /-- BULK_STATE_READ (R562). -/
  | bulkStateRead (n : BitVec 6)
  /-- TWB_WAKE_ADDRESS (R703). -/
  | twbWakeAddress (plane : BitVec 2)
  /-- TWB_SCL_LOW (R706). -/
  | twbSclLow
  /-- TWB_SDA_LOW (R707). -/
  | twbSdaLow
  /-- TWB_CONTROLLER_GO (R709). -/
  | twbControllerGo (src : Source) (v : Word)
  /-- TWB_TRANSFER_DONE (R708). -/
  | twbTransferDone (e : TwbEnd)
  /-- TWB_ADDRESS_RETRY (R713). -/
  | twbAddressRetry
  /-- ARBITRATION_LOST (R714). -/
  | arbitrationLost
  /-- TWB_CONTROLLER_SCL_TIMEOUT (R715). -/
  | twbControllerSclTimeout
  /-- BUS_RECOVERY (R716). -/
  | busRecovery
  /-- SDA_WAIT_CLEAR (R717). -/
  | sdaWaitClear
  /-- BUS_STUCK (R717). -/
  | busStuck
  /-- TWB_CBUF_ACCESS (R710). -/
  | twbCbufAccess (src : Source) (w : Option Word)
  /-- TWBI_WRITE (R719). -/
  | twbiWrite
  /-- TWBI_DELAY (R545). -/
  | twbiDelay
  /-- TWBI_END (R545). -/
  | twbiEnd
  /-- ROPE_NOP (R654). -/
  | ropeNop (x : Exchange)
  /-- ROPE_IDENT (R654). -/
  | ropeIdent (x : Exchange)
  /-- ROPE_STATUS (R654). -/
  | ropeStatus (x : Exchange)
  /-- ROPE_READ (R886). -/
  | ropeRead (x : Exchange)
  /-- ROPE_WRITE (R655). -/
  | ropeWrite (x : Exchange)
  /-- CELLS (R654). -/
  | cells (x : Exchange)
  /-- SET_FRAME (R660). -/
  | setFrame (x : Exchange)
  /-- TIME (R654). -/
  | time (x : Exchange)
  /-- LEAVE_LIMP (R656). -/
  | leaveLimp (x : Exchange)
  /-- IMG_CHUNK (R557). -/
  | imgChunk (x : Exchange)
  /-- IMG_STATE (R654). -/
  | imgState (x : Exchange)
  /-- ROPE_REPLY_READY (R650). -/
  | ropeReplyReady
  /-- ROPE_XFER_GO (R637). -/
  | ropeXferGo (src : Source) (v : Word)
  /-- XFER_DONE (R639). -/
  | xferDone (rx : List Word)
  /-- ROP_BUFDATA_ACCESS (R635). -/
  | ropBufdataAccess (src : Source) (w : Option Word)
  /-- TAKEOVER (R667). -/
  | takeover (w : Option RegWrite)
  /-- ROPE_MODE_FAULT (R669). -/
  | ropeModeFault
  /-- ENUMERATION (R672). -/
  | enumeration (found : List Found)
  /-- REEL_CHANNEL_ENABLE (R603). -/
  | reelChannelEnable (src : Source) (ch : Fin 8) (v : Word)
  /-- REEL_CHANNEL_STOP (R602). -/
  | reelChannelStop (src : Source) (ch : Fin 8) (v : Word)
  /-- LEASE_GRANT (R587). -/
  | leaseGrant
  /-- PAGE_READY (R611). -/
  | pageReady (ch : Fin 8)
  /-- CHANNEL_DONE (R607). -/
  | channelDone (ch : Fin 8)
  /-- XP_LEASE_REVOKED (R465). -/
  | xpLeaseRevoked (addr : BitVec 24)
  /-- XP_RECOVERY (R467): what the SFDP read after the reset finds, if it finds the signature. -/
  | xpRecovery (sfdp : Option Sfdp)
  /-- XP_CFG_APPLY (R577). -/
  | xpCfgApply
  /-- DIRECT_TRANSACTION (R598). -/
  | directTransaction (src : Source) (v : Word)
  /-- DIRECT_TRANSACTION_END (R597). -/
  | directTransactionEnd (data : Vector Byte 32)
  /-- XP_TIMEOUT (R594). -/
  | xpTimeout
  /-- WHIP_START (R843). -/
  | whipStart (src : Source) (u : Fin 4) (v : Word)
  /-- WHIP_FEED (R841). -/
  | whipFeed (src : Source) (u : Fin 4) (reg : FeedReg) (v : Word)
  /-- WHIP_BYTE (R844). -/
  | whipByte (u : Fin 4)
  /-- WHIP_CHECK (R849). -/
  | whipCheck (src : Source) (u : Fin 4) (v : Word)
  /-- WHIP_COMPARE (R850). -/
  | whipCompare (u : Fin 4)
  /-- MON_SRC_WRITE (R867). -/
  | monSrcWrite (src : Source) (n : Fin 8) (v : Word)
  /-- MON_SAMPLE (R862). -/
  | monSample
  /-- THERMAL_MEASURE (R817). -/
  | thermalMeasure (m : Thermal)
  /-- IREF_CHECK (R92). -/
  | irefCheck (ohms : Option Nat)
  /-- DIAG_STEP_BEGIN (R823). -/
  | diagStepBegin
  /-- DIAG_SAMPLE (R826). -/
  | diagSample (v : Option (BitVec 12))
  /-- FAULT_PIN_HOLD_END (R472). -/
  | faultPinHoldEnd
  /-- ASRC_ACQUIRING (R786). -/
  | asrcAcquiring (out : Bool) (ratio : Word)
  /-- ASRC_LOCKED (R787). -/
  | asrcLocked (out : Bool) (ratio : Word) (ms : Byte)
  /-- ASRC_NO_CLOCK (R786). -/
  | asrcNoClock (out : Bool)
  /-- ASRC_PHASE_LOSS (R786). -/
  | asrcPhaseLoss (out : Bool)
  /-- PORT_OVERRUN (R798). -/
  | portOverrun (out : Bool)
  /-- CONVERTER_UNDERRUN (R797). -/
  | converterUnderrun (out : Bool)
  /-- GPIO_WRITE (R883). -/
  | gpioWrite (src : Source) (out : Bool) (v : Word)
  /-- VCC_MEASUREMENT (R244). -/
  | vccMeasurement (mv : BitVec 16)
  /-- CHARACTER_SENT (R733). -/
  | characterSent
  /-- VDDX_VALID (R82). -/
  | vddxValid (mv : BitVec 16)
  deriving DecidableEq, Repr

end Sys2Proof
end

