-- ==== Sys2Proof/Decode.lean ====
section
/-! DEFINITION. The decoder of the table's words, and the decoder and encoder of the Lay's instruction words (R381 to
R385, R409). No row of the opcode table gives bits, so no word of it spells a command; an instruction of program memory
comes as the command of its row with its fields, which `decodeWords` reads from its words. -/

namespace Sys2Proof

/-- The command that a word of nbits bits spells by the opcode table. -/
def decodeTableWord (_nbits _w : Nat) : Option Instr := none

/-- The row of an opcode (R409); 0x26 to 0x3F are reserved. -/
def rowOf (opc : Nat) (f : Form) : Option Instr :=
  match opc with
  | 0x00 => some (.nop f)
  | 0x01 => some (.mov f)
  | 0x02 => some (.add f)
  | 0x03 => some (.sub f)
  | 0x04 => some (.neg f)
  | 0x05 => some (.abs f)
  | 0x06 => some (.and f)
  | 0x07 => some (.or f)
  | 0x08 => some (.xor f)
  | 0x09 => some (.not f)
  | 0x0A => some (.shl f)
  | 0x0B => some (.shr f)
  | 0x0C => some (.shrl f)
  | 0x0D => some (.cmp f)
  | 0x0E => some (.tst f)
  | 0x0F => some (.min f)
  | 0x10 => some (.max f)
  | 0x11 => some (.mpy f)
  | 0x12 => some (.mac f)
  | 0x13 => some (.msu f)
  | 0x14 => some (.lda f)
  | 0x15 => some (.sta f)
  | 0x16 => some (.clra f)
  | 0x17 => some (.scale f)
  | 0x18 => some (.bxclr f)
  | 0x19 => some (.bcc f)
  | 0x1A => some (.call f)
  | 0x1B => some (.ret f)
  | 0x1C => some (.loop f)
  | 0x1D => some (.endLay f)
  | 0x1E => some (.mode f)
  | 0x1F => some (.yield f)
  | 0x20 => some (.movi f)
  | 0x21 => some (.clamp f)
  | 0x22 => some (.lerp f)
  | 0x23 => some (.tlu f)
  | 0x24 => some (.splc f)
  | 0x25 => some (.evt f)
  | _ => none

/-- The fields of a short form (Table 8.1). -/
def shortFields (w : Word) : Form := .short (w.extractLsb' 24 2) (w.extractLsb' 12 12) (w.extractLsb' 0 12)

/-- The fields of a long form (Table 8.2). -/
def longFields (w0 w1 : Word) : Form :=
  .long (w0.extractLsb' 23 2) (w0.extractLsb' 21 2) (w0.getLsbD 20) (w0.extractLsb' 18 2) (w0.extractLsb' 16 2)
    (w0.getLsbD 15) (w0.extractLsb' 3 12) (w0.extractLsb' 0 3) (w1.extractLsb' 12 20) (w1.extractLsb' 0 12)

/-- The instruction whose first word is w0, and whose second word is w1 where bit 31 of w0 says that it has one (R381,
R384, R385). An opcode that no row has gives an instruction that is annulled (R402), which carries its first word. -/
def decodeWords (w0 w1 : Word) : Instr :=
  if w0.getLsbD 31 then (rowOf (w0.extractLsb' 25 6).toNat (longFields w0 w1)).getD (.nop (.reserved w0))
  else (rowOf (w0.extractLsb' 26 5).toNat (shortFields w0)).getD (.nop (.reserved w0))

/-- Words of the instruction that begins with w0 (R381). -/
def wordsOf (w0 : Word) : Nat := if w0.getLsbD 31 then 2 else 1

/-- The opcode of an instruction of the Lay, and its fields (R409). -/
def opcodeOf : Instr → Option (Nat × Form)
  | .nop f => some (0x00, f)
  | .mov f => some (0x01, f)
  | .add f => some (0x02, f)
  | .sub f => some (0x03, f)
  | .neg f => some (0x04, f)
  | .abs f => some (0x05, f)
  | .and f => some (0x06, f)
  | .or f => some (0x07, f)
  | .xor f => some (0x08, f)
  | .not f => some (0x09, f)
  | .shl f => some (0x0A, f)
  | .shr f => some (0x0B, f)
  | .shrl f => some (0x0C, f)
  | .cmp f => some (0x0D, f)
  | .tst f => some (0x0E, f)
  | .min f => some (0x0F, f)
  | .max f => some (0x10, f)
  | .mpy f => some (0x11, f)
  | .mac f => some (0x12, f)
  | .msu f => some (0x13, f)
  | .lda f => some (0x14, f)
  | .sta f => some (0x15, f)
  | .clra f => some (0x16, f)
  | .scale f => some (0x17, f)
  | .bxclr f => some (0x18, f)
  | .bcc f => some (0x19, f)
  | .call f => some (0x1A, f)
  | .ret f => some (0x1B, f)
  | .loop f => some (0x1C, f)
  | .endLay f => some (0x1D, f)
  | .mode f => some (0x1E, f)
  | .yield f => some (0x1F, f)
  | .movi f => some (0x20, f)
  | .clamp f => some (0x21, f)
  | .lerp f => some (0x22, f)
  | .tlu f => some (0x23, f)
  | .splc f => some (0x24, f)
  | .evt f => some (0x25, f)
  | _ => none

/-- The words of an instruction from its opcode and fields (Tables 8.1, 8.2); the second word of an instruction with a
reserved opcode says nothing, and is left out. -/
def encodeForm (opc : Nat) : Form → List Word
  | .short aux x y => [BitVec.ofNat 32 (opc % 32 * 2 ^ 26 + aux.toNat * 2 ^ 24 + x.toNat * 2 ^ 12 + y.toNat)]
  | .long fp lane xs rnd sat trk c1 fm fpl c2 =>
    [BitVec.ofNat 32 (2 ^ 31 + opc % 64 * 2 ^ 25 + fp.toNat * 2 ^ 23 + lane.toNat * 2 ^ 21 + xs.toNat * 2 ^ 20
      + rnd.toNat * 2 ^ 18 + sat.toNat * 2 ^ 16 + trk.toNat * 2 ^ 15 + c1.toNat * 2 ^ 3 + fm.toNat),
     BitVec.ofNat 32 (fpl.toNat * 2 ^ 12 + c2.toNat)]
  | .reserved w => [w]

/-- The words of an instruction of the Lay; none for another command. -/
def encode (i : Instr) : Option (List Word) := (opcodeOf i).map (fun p => encodeForm p.1 p.2)

/-- An instruction that words can hold: a short form has an opcode of five bits, and a reserved opcode stands for itself. -/
def encodable (i : Instr) : Bool :=
  match opcodeOf i with
  | some (opc, .short _ _ _) => decide (opc < 32)
  | some (_, .long _ _ _ _ _ _ _ _ _ _) => true
  | some (opc, .reserved w) => opc == 0 && w.getLsbD 31 && decide ((w.extractLsb' 25 6).toNat ≥ 0x26)
  | none => false

end Sys2Proof
end

