-- ==== Sys2Proof/Config.lean ====
section
/-! DEFINITION. What an implementation fixes and what the spec leaves open. Every constant here is opaque: no proof can
see its value, so a claim holds whatever it is. -/

namespace Sys2Proof.Config

/-- `ID_STEP` bits [15:8], the ROM version (R16, Table 0.4). DESIGN CHOICE, free (safe): log entry 16. -/
opaque romVersion : BitVec 8
/-- The unique identity fixed at manufacture (R876). DESIGN CHOICE, free (safe): log entry 16. -/
opaque uniqueLo : BitVec 32
opaque uniqueHi : BitVec 32

/-- What an external memory holds at a byte that the device has not written: by epoch, and by device × 2^32 + address. DESIGN CHOICE, free (safe): log entry 9. -/
opaque extByte : Nat → Nat → BitVec 8

/-- The core clock of a back-fill, modulo 8192, in which word i is copied: the order is open (R498). DESIGN CHOICE, free (safe): log entry 10. -/
opaque backfillClock : Nat → Nat

/-- Whether a Lay read whose lateness turns on the timing of that read is late (R593), by free value. DESIGN CHOICE, free (safe): log entry 11. -/
opaque readLate : Nat → Bool
/-- Core clocks for which a Slack read waits for a transaction boundary or for the end of a recovery (R304, R588), by free
value. DESIGN CHOICE, free (safe): log entry 12. -/
opaque slackWait : Nat → Nat
/-- Data bytes that a page read transfers, and whether the memory asks for the doubled latency of VARLAT (Table 12.3), by free
value. DESIGN CHOICE, free (safe): log entry 12. -/
opaque readBytes : Nat → Nat
opaque latencyDouble : Nat → Bool

/-- Cells or units of a job already moved when its lease is revoked (R465), by free value. DESIGN CHOICE, free (safe): log entry 13. -/
opaque revokedUnits : Nat → Nat
/-- Bursts of a transfer done when it ends at a burst boundary (R602, R611, R620), by free value. DESIGN CHOICE, free (safe): log entry 13. -/
opaque burstsDone : Nat → Nat

/-- Lmax of a ROM Lay, and the slot of its END (R42, R70), by code. DESIGN CHOICE, free (safe): log entry 14. -/
opaque romLmax : Nat → Nat
opaque romEndSlot : Nat → Nat
/-- Where in its turn the 1 kHz sine of ROM Lays 13 and 14 starts (Table 3.4), in 2^-32 of a turn. DESIGN CHOICE, free
(safe): log entry 14. -/
opaque romPhase : Nat
/-- The wave form of the chime and of the two-tone sound of Table 3.4, whose shape is open: by the phases, in 2^-32 of a
turn, of its tones and of its modulation. DESIGN CHOICE, free (safe): log entry 14. -/
opaque romWave : Nat → Nat → Nat → Int

/-- How bright, in 256ths of its level, a ROM Lay shows a segment while it rises, pulses or fades (Table 3.4): by ROM
Lay, light ticks since the trigger, and segment. DESIGN CHOICE, free (safe): log entry 14. -/
opaque romShape : Nat → Nat → Nat → Nat
/-- The light tick of a 400 ms pulse of ROM Lay 5 at which it is at stop level. DESIGN CHOICE, free (safe): log entry 14. -/
opaque romPeak : Nat
/-- Frames from a change of ROM Lay 11 to the frame that its CELLS requests name (Table 3.4), by frame. DESIGN CHOICE, free
(safe): log entry 60. -/
opaque romLead : Nat → Nat
/-- The current-scale code of a lit bar segment of ROM Lay 10 (Table 3.4). DESIGN CHOICE, free (safe): log entry 14. -/
opaque romBar : BitVec 8

/-- The error result of a Slack-served command whose ROM handler was annulled (R442), as an offset from 3 of Table 13.6.
DESIGN CHOICE, free (safe): log entry 90. -/
opaque jobError : Nat
/-- The program address that the log gives for a ROM program's instruction (Table 9.6), by context and memory. DESIGN CHOICE,
free (safe): log entry 90. -/
opaque romPc : Bool → Nat → BitVec 13

/-- Whether a mean of eight window deviations that is no whole number of 0.1 ppm is rounded up in AVG (R225), by the
sum. DESIGN CHOICE, free (safe): log entry 15. -/
opaque monitorUp : Int → Bool

/-- What a PARAM_OUT response carries for a cell that is no multiple of its unit or lies outside its range (Table 15.3,
R746), by cell, width and signedness. DESIGN CHOICE, free (safe): log entry 15. -/
opaque paramOut : Nat → Nat → Bool → Nat

/-- Whether a fraction num/den that is no whole number is rounded up where the spec scales linearly and states no
rounding (R201, R787, R801). DESIGN CHOICE, free (safe): log entry 15. -/
opaque scaleUp : Int → Nat → Bool

end Sys2Proof.Config
end

