-- ==== Sys2Proof/Machine/Bits.lean ====
section
/-! DEFINITION. Bit fields of registers, little-endian bytes, rounding, and plain access to fixed arrays.
Every other file reads and writes fields through these. -/

namespace Sys2Proof.Machine

/-- Bits [hi:lo] of a register, as a number. -/
def fld (w : Word) (hi lo : Nat) : Nat := w.toNat / 2 ^ lo % 2 ^ (hi + 1 - lo)

/-- Bit n of a register. -/
def bit (w : Word) (n : Nat) : Bool := w.toNat / 2 ^ n % 2 == 1

/-- The register with bits [hi:lo] replaced by the low bits of v. -/
def putFld (w : Word) (hi lo v : Nat) : Word :=
  BitVec.ofNat 32 (w.toNat - fld w hi lo * 2 ^ lo + v % 2 ^ (hi + 1 - lo) * 2 ^ lo)

/-- 1 for true, 0 for false. -/
def b2n (b : Bool) : Nat := if b then 1 else 0

/-- The register with bit n replaced. -/
def putBit (w : Word) (n : Nat) (b : Bool) : Word := putFld w n n (b2n b)

/-- A count that stays at its largest value. -/
def satInc (v top : Nat) : Nat := if v ≥ top then top else v + 1

/-- Bits [hi:lo] of a cell, as a number. -/
def cfld (c : Cell) (hi lo : Nat) : Nat := c.toNat / 2 ^ lo % 2 ^ (hi + 1 - lo)

/-- Bit n of a number. -/
def nbit (v n : Nat) : Bool := v / 2 ^ n % 2 == 1

/-- Bit n of a number set. -/
def nset (v n : Nat) : Nat := if nbit v n then v else v + 2 ^ n

/-- Bit n of a number cleared. -/
def nclr (v n : Nat) : Nat := if nbit v n then v - 2 ^ n else v

/-- Byte k of a register, byte 0 the least significant (R7). -/
def byteOf (w : Word) (k : Nat) : Byte := BitVec.ofNat 8 (w.toNat / 256 ^ k)

/-- The four bytes of a register, least significant first (R7). -/
def bytesOf (w : Word) : List Byte := [byteOf w 0, byteOf w 1, byteOf w 2, byteOf w 3]

/-- A little-endian number from bytes (R7, R523). -/
def leNat : List Byte → Nat
  | [] => 0
  | b :: bs => b.toNat + 256 * leNat bs

/-- The signed value of the low w bits of a number. -/
def signed (w v : Nat) : Int := (BitVec.ofNat w v).toInt

/-- Two's complement of an integer in w bits. -/
def toBits (w : Nat) (i : Int) : BitVec w := BitVec.ofInt w i

/-- Entry i of a fixed array, d outside it. -/
def vget {α : Type} {n : Nat} (v : Vector α n) (i : Nat) (d : α) : α := v.toList.getD i d

/-- The array with entry i replaced; unchanged outside it. -/
def vset {α : Type} {n : Nat} (v : Vector α n) (i : Nat) (x : α) : Vector α n := v.setIfInBounds i x

/-- The number of bits set in the low n bits. -/
def popCount (v : Nat) : Nat → Nat
  | 0 => 0
  | n + 1 => popCount v n + v / 2 ^ n % 2

/-- The lowest set bit below n, searched from bit i upward with fuel. -/
def lowestBit (v : Nat) : Nat → Nat → Option Nat
  | 0, _ => none
  | fuel + 1, i => if nbit v i then some i else lowestBit v fuel (i + 1)

/-- floor(num / den + 1/2): rounding half up. -/
def roundHalfUp (num : Int) (den : Nat) : Int := (2 * num + den) / (2 * den : Int)

end Sys2Proof.Machine
end

