-- ==== Sys2Proof/Machine/RegTable.lean ====
section
/-! DEFINITION. The register map (R875, Tables 19.2 to 19.4) with the writable fields of every field map: a field not
listed is read-only or reserved and ignores writes (R8, R9, R11). Register i of page p has number 64 × p + i. -/

namespace Sys2Proof.Machine

/-- Access of a writable field (Table 0.3). A W1C flag may clear a count with it (R13, R885); key fields and other
write-only fields store nothing and are not listed. -/
inductive Access where
  | rw | rws | rwl
  | w1c (clears : Option (Nat × Nat))
  deriving DecidableEq, Repr

/-- Which values of a field are not reserved encodings (R10). -/
inductive Legal where
  | any
  | range (lo hi : Nat)
  | except (vals : List Nat)
  deriving DecidableEq, Repr

structure Field where
  hi     : Nat
  lo     : Nat
  access : Access
  legal  : Legal
  deriving DecidableEq, Repr

/-- One row of the register map: registers first, first + stride, … (count of them). -/
structure RegRow where
  first  : Nat
  count  : Nat
  stride : Nat
  reset  : Word
  fields : List Field
  deriving DecidableEq, Repr

def rwF (hi lo : Nat) : Field := ⟨hi, lo, .rw, .any⟩
def rwR (hi lo a b : Nat) : Field := ⟨hi, lo, .rw, .range a b⟩
def rwX (hi lo : Nat) (vals : List Nat) : Field := ⟨hi, lo, .rw, .except vals⟩
def rwlF (hi lo : Nat) (legal : Legal) : Field := ⟨hi, lo, .rwl, legal⟩
def rwsF (hi lo : Nat) (legal : Legal) : Field := ⟨hi, lo, .rws, legal⟩
def w1cF (n : Nat) : Field := ⟨n, n, .w1c none, .any⟩
def w1cC (n hi lo : Nat) : Field := ⟨n, n, .w1c (some (hi, lo)), .any⟩
def w1cs (hi lo : Nat) : List Field := (List.range (hi + 1 - lo)).map (fun k => w1cF (lo + k))
def one (r : Nat) (reset : Word) (fields : List Field) : RegRow := ⟨r, 1, 1, reset, fields⟩

/-- Register i of page p, by byte offset. -/
def rid (page offset : Nat) : Nat := 64 * page + offset / 4

/-! Register numbers, by the names of Tables 19.2 to 19.4. -/
namespace Reg
def idPart := rid 0x00 0x04
def idStep := rid 0x00 0x08
def idUniqueLo := rid 0x00 0x0C
def idUniqueHi := rid 0x00 0x10
def sysMode := rid 0x00 0x14
def sysModeReq := rid 0x00 0x18
def sysStatus := rid 0x00 0x1C
def sysReason := rid 0x00 0x20
def sysStartCount := rid 0x00 0x24
def sysFrame := rid 0x00 0x28
def sysEvents := rid 0x00 0x2C
def sysEventEn := rid 0x00 0x30
def sysFaultPin := rid 0x00 0x34
def sysOwner := rid 0x00 0x38
def sysReset := rid 0x00 0x3C
def clkSrcOrder := rid 0x01 0x04
def clkStatus := rid 0x01 0x08
def clkPllCfg := rid 0x01 0x0C
def clkMonCfg := rid 0x01 0x10
def clkMonDev := rid 0x01 0x14
def clkNudge := rid 0x01 0x18
def pwrWakeEn := rid 0x01 0x1C
def pwrWakeSrc := rid 0x01 0x20
def pwrDormantCfg := rid 0x01 0x24
def pwrVmon := rid 0x01 0x28
def strMs := rid 0x02 0x04
def strOverride := rid 0x02 0x20
def cltLadderCfg := rid 0x03 0x04
def cltTaint := rid 0x03 0x08
def cltLogHead := rid 0x03 0x0C
def cltWdog := rid 0x03 0x10
def cltLease := rid 0x03 0x14
/-- Word w of log entry e. -/
def log (e w : Nat) := 64 * 0x04 + 4 * e + w
def layFrameCfg := rid 0x05 0x04
def laySlackMin := rid 0x05 0x08
def layWalkAllow := rid 0x05 0x0C
def layBank := rid 0x05 0x10
def layEntry := rid 0x05 0x14
def laySlackEntry := rid 0x05 0x18
def layEndSlot := rid 0x05 0x1C
def layCtrl := rid 0x05 0x20
def layCoilCfg := rid 0x05 0x24
def layStatus := rid 0x05 0x28
def layEvtPend := rid 0x05 0x2C
def layEvtEn := rid 0x05 0x30
def layEvtTake := rid 0x05 0x34
def splCtrl := rid 0x06 0x04
def splStagePtr := rid 0x06 0x08
def splStageData := rid 0x06 0x0C
def splCommitFrame := rid 0x06 0x10
def splGlide := rid 0x06 0x14
def splZcTimeout := rid 0x06 0x18
def splStatus := rid 0x06 0x1C
def mapL1Base := rid 0x07 0x04
def mapCacheCtrl := rid 0x07 0x08
def mapPinMask := rid 0x07 0x0C
def mapFaultAddr := rid 0x07 0x10
def mapWalkStats := rid 0x07 0x14
def mapLineCtrl := rid 0x07 0x18
def mapEccStatus := rid 0x07 0x1C
def relCtrl := rid 0x08 0x04
/-- REL_CHn_CFG, _SRC, _DST, _LEN, _RING, _STATUS for k from 0 to 5. -/
def rel (n k : Nat) := rid 0x08 0x08 + 6 * n + k
def xpCfg := rid 0x09 0x04
def xpPhase (n : Nat) := rid 0x09 0x08 + n
def xpTiming := rid 0x09 0x18
def xpLeaseTimeout := rid 0x09 0x1C
def xpResetCfg := rid 0x09 0x20
def xpDevSize (d : Nat) := rid 0x09 0x24 + d
def xpStatus := rid 0x09 0x2C
def xpDcmd := rid 0x09 0x30
def xpDaddr := rid 0x09 0x34
def xpDbuf (k : Nat) := rid 0x09 0x38 + k
def ropCfg := rid 0x0A 0x04
def ropClk := rid 0x0A 0x08
def ropNode := rid 0x0A 0x0C
def ropSeq := rid 0x0A 0x10
def ropStatus := rid 0x0A 0x14
def ropFault := rid 0x0A 0x18
def ropXfer := rid 0x0A 0x1C
def ropBufptr := rid 0x0A 0x20
def ropBufdata := rid 0x0A 0x24
def ropStamp := rid 0x0A 0x28
def ropImg := rid 0x0A 0x2C
def ropPresent (k : Nat) := rid 0x0A 0x40 + k
def ropSelmap (k : Nat) := rid 0x0A 0x80 + k
def ropProf (p : Nat) := rid 0x0B 0x04 + p
def twbCfg := rid 0x0C 0x04
def twbAddr := rid 0x0C 0x08
def twbCtrl := rid 0x0C 0x0C
def twbStatus := rid 0x0C 0x10
def twbTimeout := rid 0x0C 0x14
def twbCbuf := rid 0x0C 0x18
def halCfg := rid 0x0D 0x04
def halBaud := rid 0x0D 0x08
def halLinCfg := rid 0x0D 0x0C
def halWake := rid 0x0D 0x10
def halStatus := rid 0x0D 0x14
def halBuf := rid 0x0D 0x18
def halErrcnt := rid 0x0D 0x1C
def audACfg := rid 0x0E 0x04
def audASlots := rid 0x0E 0x08
def audCCfg := rid 0x0E 0x0C
def audBCfg := rid 0x0E 0x10
def audZcCfg := rid 0x0E 0x14
def audAlign := rid 0x0E 0x18
def audStatus := rid 0x0E 0x1C
def audCounts := rid 0x0E 0x20
def asrCfg := rid 0x0F 0x04
def asrRatioIn := rid 0x0F 0x08
def asrRatioOut := rid 0x0F 0x0C
def asrLock := rid 0x0F 0x10
def asrRange := rid 0x0F 0x14
def snkGlobal := rid 0x10 0x04
def snkIref := rid 0x10 0x08
def snkDerate := rid 0x10 0x0C
def snkNtc (k : Nat) := rid 0x10 0x10 + k
def snkColor := rid 0x10 0x18
def snkCfg (n : Nat) := rid 0x10 0x40 + n
def snkCur (n : Nat) := rid 0x11 0x04 + n
def snkDiag (n : Nat) := rid 0x11 0x80 + n
def snkFs (k : Nat) := rid 0x12 0x04 + k
def snkFsState := rid 0x12 0x10
/-- WHPu_CFG, _POLY, _INIT, _XOROUT, _FEED8, _FEED16, _FEED32, _RESULT, _EXPECT, _STATUS for k from 0 to 9. -/
def whp (u k : Nat) := rid 0x13 0x04 + 10 * u + k
/-- MON_n_SRC, _MIN, _MAX, _COUNT for k from 0 to 3. -/
def mon (n k : Nat) := rid 0x14 0x04 + 4 * n + k
/-- The register holding bins 2j and 2j + 1 of monitor n (Tables 18.x): units 0 to 3 on page 0x15, 4 to 7 on 0x16. -/
def monBins (n j : Nat) := rid (0x15 + n / 4) 0x04 + 8 * (n % 4) + j
def tmpDie := rid 0x17 0x04
def tmpNtc (k : Nat) := rid 0x17 0x08 + k
def gpioDir := rid 0x18 0x04
def gpioOut := rid 0x18 0x08
def gpioIn := rid 0x18 0x0C
end Reg

def regPage0 : List RegRow := [
  one Reg.idPart 0x0E054096 [],
  one Reg.idStep 0x000000C0 [],
  one Reg.sysModeReq 0 [rwF 3 0],
  one Reg.sysReason 0x00010100 [],
  one Reg.sysEvents 0 (w1cs 9 0),
  one Reg.sysEventEn 0x00000001 [rwF 9 0],
  one Reg.sysFaultPin 0x000000E7 [rwF 15 15, rwF 14 14, w1cF 13, rwF 7 0],
  one Reg.sysOwner 0 [rwF 3 0]]

def regPage1 : List RegRow := [
  one Reg.clkSrcOrder 0x00000001 [rwlF 11 8 (.range 0 4), rwlF 7 4 (.range 0 4), rwlF 3 0 (.range 0 4)],
  one Reg.clkStatus 0 [w1cC 24 31 28, w1cF 25, w1cF 26],
  one Reg.clkPllCfg 0x00080000 [rwF 5 4, rwF 1 0],
  one Reg.clkMonCfg 0x00080802 [rwX 23 16 [0], rwX 15 8 [0], rwF 2 2, rwF 1 1, rwF 0 0],
  one Reg.clkNudge 0 [rwF 15 0],
  one Reg.pwrWakeEn 0x0000003F [rwF 24 24, rwF 23 17, rwF 7 0],
  one Reg.pwrWakeSrc 0 ([w1cF 10, w1cF 9, w1cF 8] ++ w1cs 7 0),
  one Reg.pwrDormantCfg 0x00040000 [rwF 18 18, rwX 17 16 [2, 3], rwF 15 0],
  one Reg.pwrVmon 0 [w1cF 30]]

def regPages2to4 : List RegRow := [
  one Reg.strOverride 0 [rwsF 29 24 .any, rwsF 23 20 .any, rwsF 19 16 .any, rwsF 15 12 .any, rwsF 11 8 .any,
    rwsF 7 4 .any, rwsF 3 0 .any],
  one Reg.cltLadderCfg 0x081430A0 [rwsF 31 24 (.except [0]), rwsF 23 16 (.except [0]), rwsF 15 12 (.except [0]),
    rwsF 11 4 (.except [0])],
  one Reg.cltTaint 0 [w1cF 1, w1cC 0 31 16],
  one Reg.cltLogHead 0 [w1cC 23 31 24, rwF 22 22, w1cF 20],
  one Reg.cltWdog 0x00000064 [rwlF 9 0 (.except [0])],
  one Reg.cltLease 0xF0000000 [w1cC 26 23 16]]

def regPage5 : List RegRow := [
  one Reg.layFrameCfg 0x10001001 [rwlF 1 0 (.except [3])],
  one Reg.laySlackMin 0x00000100 [rwR 12 0 128 4096],
  one Reg.layWalkAllow 0x00000020 [rwR 10 0 0 1024],
  one Reg.layEntry 0 [rwF 12 0],
  one Reg.laySlackEntry 0 [rwlF 31 31 .any, rwlF 12 0 .any],
  one Reg.layCtrl 0 [rwF 13 13, w1cF 12, rwF 11 0],
  one Reg.layCoilCfg 0x00000101 [rwF 8 8, rwF 0 0],
  one Reg.layStatus 0 [w1cF 2, w1cC 1 31 24],
  one Reg.layEvtEn 0 [rwF 21 0]]

def regPages6and7 : List RegRow := [
  one Reg.splCtrl 0 [rwF 0 0],
  one Reg.splStagePtr 0 [rwX 31 30 [3], rwF 29 29, rwF 12 0],
  one Reg.splCommitFrame 0 [rwF 31 0],
  one Reg.splGlide 0 [rwR 12 0 0 4096],
  one Reg.splZcTimeout 0x00000010 [rwR 6 0 1 64],
  one Reg.splStatus 0 [w1cF 10, w1cF 9, w1cF 8, w1cF 7, w1cF 6, w1cF 5, w1cF 4, w1cC 3 31 24],
  one Reg.mapL1Base 0 [rwF 31 31, rwF 30 30, rwF 29 29, rwF 28 28, rwF 23 0],
  one Reg.mapCacheCtrl 0 [w1cF 28, rwF 11 0],
  one Reg.mapLineCtrl 0 [rwF 8 8, rwF 0 0],
  one Reg.mapEccStatus 0 (w1cs 12 8 ++ [w1cC 0 31 24])]


def regPages8and9 : List RegRow := [
  one Reg.relCtrl 0 [rwF 0 0],
  ⟨Reg.rel 0 0, 8, 6, 0x00600000, [rwF 31 31, rwF 30 29, rwR 28 26 0 3, rwX 25 23 [7], rwX 22 21 [0], rwF 20 20,
    rwF 19 19, rwF 18 11, rwF 10 8, rwF 7 4]⟩,
  ⟨Reg.rel 0 1, 8, 6, 0, [rwF 31 0]⟩,
  ⟨Reg.rel 0 2, 8, 6, 0, [rwF 31 0]⟩,
  ⟨Reg.rel 0 3, 8, 6, 0, [rwF 31 0]⟩,
  ⟨Reg.rel 0 4, 8, 6, 0x00000200, [rwF 11 8, rwF 4 0]⟩,
  ⟨Reg.rel 0 5, 8, 6, 0, [w1cF 25]⟩,
  one Reg.xpCfg 0x00000010 [rwF 8 8, rwF 7 7, rwX 5 0 (0 :: (List.range 32).map (fun k => 2 * k + 1))],
  ⟨Reg.xpPhase 0, 4, 1, 0x03004000, [rwF 31 24, rwX 23 22 [3], rwX 21 20 [3], rwF 19 19, rwX 18 17 [3], rwF 16 16,
    rwX 15 14 [3], rwX 13 12 [3], rwF 11 11, rwF 10 10, rwF 8 4]⟩,
  one Reg.xpTiming 0x14000200 [rwX 31 24 [0], rwF 23 16, rwX 11 8 [0]],
  one Reg.xpLeaseTimeout 0x000000C8 [rwR 15 0 10 65535],
  one Reg.xpResetCfg 0x80000A32 [rwF 31 31, rwX 15 8 [0], rwX 7 0 [0]],
  one (Reg.xpDevSize 0) 0x08000000 [rwX 31 30 [3], rwF 29 28, rwF 27 26, rwF 9 8, rwR 4 0 16 31],
  one (Reg.xpDevSize 1) 0x1C000000 [rwX 31 30 [3], rwF 29 28, rwF 27 26, rwF 9 8, rwR 4 0 16 31],
  one Reg.xpStatus 0 (w1cs 11 8),
  one Reg.xpDcmd 0 [rwF 31 24, rwF 23 22, rwF 21 21, rwF 20 20, rwF 19 18, rwF 17 17, rwF 16 16, w1cF 14, w1cF 13,
    rwR 5 0 0 32],
  one Reg.xpDaddr 0 [rwF 31 0],
  ⟨Reg.xpDbuf 0, 8, 1, 0, [rwF 31 0]⟩]

def regPagesAandB : List RegRow := [
  one Reg.ropCfg 0x080500C0 [rwF 31 31, rwF 30 30, rwlF 29 28 (.except [3]), rwF 27 27, rwX 23 16 [0], rwF 15 8,
    rwlF 7 6 .any, rwF 3 3],
  one Reg.ropClk 0x00000004 [rwR 5 0 4 63],
  one Reg.ropNode 0 [rwF 7 0],
  one Reg.ropSeq 0 [rwF 7 0],
  one Reg.ropStatus 0 (w1cs 13 6 ++ [w1cC 5 31 24]),
  one Reg.ropXfer 0x00000001 [rwF 29 29, rwF 28 28, rwF 27 27, rwF 23 16, rwR 7 0 1 128],
  one Reg.ropBufptr 0 [rwF 8 8, rwF 6 0],
  one Reg.ropImg 0 [rwF 31 12, rwF 1 1, rwF 0 0],
  ⟨Reg.ropSelmap 0, 32, 1, 0, [rwF 31 0]⟩,
  ⟨Reg.ropProf 0, 16, 1, 0x00F80FFF, [rwF 31 31, rwX 30 29 [3], rwF 28 27, rwF 26 26, rwF 25 25, rwF 24 24, rwF 23 19,
    rwF 11 0]⟩]

def regPagesCandD : List RegRow := [
  one Reg.twbCfg 0x78000000 [rwX 31 30 [3], rwF 29 29, rwF 28 28, rwF 27 26],
  one Reg.twbCtrl 0 [w1cF 29, rwF 28 28, rwF 22 16, rwR 13 8 0 32, rwR 5 0 0 32],
  one Reg.twbStatus 0 (w1cs 9 4 ++ [w1cC 3 31 24]),
  one Reg.twbTimeout 0x00001E03 [rwR 15 8 26 33, rwF 1 1, rwF 0 0],
  one Reg.twbCbuf 0 [],
  one Reg.halCfg 0x00000002 [rwF 4 4, rwF 3 3, rwF 2 2, rwX 1 0 [3]],
  one Reg.halBaud 0x00028000 [rwR 23 0 27307 2621440],
  one Reg.halLinCfg 0x0000010B [rwF 8 8, rwR 3 0 10 13],
  one Reg.halWake 0x00000014 [rwF 23 16, rwR 7 0 5 100],
  one Reg.halStatus 0 (w1cs 15 8)]

def regPagesEandF : List RegRow := [
  one Reg.audACfg 0x08000000 [rwF 31 31, rwF 30 30, rwX 29 28 [3], rwX 27 26 [3], rwX 21 20 [3], rwF 19 19],
  one Reg.audASlots 0x000000FF [rwF 23 16, rwF 15 8, rwF 7 0],
  one Reg.audCCfg 0x000000FF [rwF 31 31, rwF 15 8, rwF 7 0],
  one Reg.audBCfg 0x48000000 [rwF 31 31, rwX 29 28 [3], rwX 27 26 [3], rwX 21 20 [3]],
  one Reg.audAlign 0 [rwlF 12 0 .any],
  one Reg.audStatus 0 (w1cs 4 0),
  one Reg.asrCfg 0 [rwX 9 8 [3], rwX 1 0 [3]],
  one Reg.asrLock 0 [w1cF 13, w1cF 12],
  one Reg.asrRange 0x32083208 [rwX 31 24 [0], rwR 19 16 0 12, rwX 15 8 [0], rwR 3 0 0 12]]

def regPages10to12 : List RegRow := [
  one Reg.snkGlobal 0x84010019 [rwF 31 31, rwF 27 24, rwR 16 8 64 256, rwR 7 0 5 30],
  one Reg.snkIref 0 [w1cF 29],
  one Reg.snkDerate 0x00007D00 [rwR 15 8 100 145],
  ⟨Reg.snkNtc 0, 2, 1, 0, [rwF 31 31, rwF 27 16, rwF 11 0]⟩,
  one Reg.snkColor 0x04020100 [rwR 26 18 1 256, rwR 17 9 1 256, rwR 8 0 1 256],
  ⟨Reg.snkCfg 0, 24, 1, 0xA0006900, [rwF 31 31, rwF 30 30, rwF 29 29, rwF 27 26, rwX 15 8 [0]]⟩,
  ⟨Reg.snkCur 0, 24, 1, 0x000000FF, [rwF 7 0]⟩,
  ⟨Reg.snkDiag 0, 24, 1, 0, [w1cF 31, w1cF 30]⟩,
  ⟨Reg.snkFs 0, 3, 1, 0, [rwF 31 24, rwF 23 0]⟩]

def regPages13to18 : List RegRow := [
  ⟨Reg.whp 0 0, 4, 10, 0x00200310, [rwR 21 16 1 32, rwF 9 9, rwF 8 8, rwF 4 4]⟩,
  ⟨Reg.whp 0 1, 4, 10, 0x04C11DB7, [rwF 31 0]⟩,
  ⟨Reg.whp 0 2, 4, 10, 0xFFFFFFFF, [rwF 31 0]⟩,
  ⟨Reg.whp 0 3, 4, 10, 0xFFFFFFFF, [rwF 31 0]⟩,
  ⟨Reg.whp 0 8, 4, 10, 0, [rwF 31 0]⟩,
  ⟨Reg.whp 0 9, 4, 10, 0, [w1cF 4, w1cC 2 23 16, w1cF 0]⟩,
  ⟨Reg.mon 0 0, 8, 4, 0, [rwsF 31 31 .any, rwsF 29 26 (.range 0 9), rwsF 25 21 (.range 0 23), rwsF 20 8 .any,
    rwsF 7 0 .any]⟩,
  one Reg.gpioDir 0 [rwF 7 0],
  one Reg.gpioOut 0 [rwF 7 0]]

/-- The rows of the register map on a page (Tables 19.2 to 19.4). -/
def regRows (page : Nat) : List RegRow :=
  match page with
  | 0x00 => regPage0
  | 0x01 => regPage1
  | 0x02 | 0x03 | 0x04 => regPages2to4
  | 0x05 => regPage5
  | 0x06 | 0x07 => regPages6and7
  | 0x08 | 0x09 => regPages8and9
  | 0x0A | 0x0B => regPagesAandB
  | 0x0C | 0x0D => regPagesCandD
  | 0x0E | 0x0F => regPagesEandF
  | 0x10 | 0x11 | 0x12 => regPages10to12
  | 0x13 | 0x14 | 0x15 | 0x16 | 0x17 | 0x18 => regPages13to18
  | _ => []

end Sys2Proof.Machine
end

