-- ==== Sys2Proof/Machine/State.lean ====
section
/-! DEFINITION. The state of the LS4096 as plain data. Registers live in one sparse register file; what a register
shows of a unit (a read-only field) is computed from the unit. Units hold what the spec gives them beside registers. -/

namespace Sys2Proof.Machine

/-- The nine modes (R153, Table 4.1). -/
inductive Mode where
  | off | dormant | standby | raise | run | holdover | limp | workshop | quiesce
  deriving DecidableEq, Repr

/-- Where RAISE stands (R165, Table 4.6): waiting for a reference (step 3), for the PLL (step 4), for a start
attempt (steps 6 to 8), for an image over the rope (R170), or for the frame tick of the first Lay frame (step 10). -/
inductive RaiseStep where
  | reference | pll | attempt | ropeWait | firstFrame
  deriving DecidableEq, Repr

/-- One strap pin as read (R121, Table 3.11). -/
structure Strap where
  amb    : Bool
  raw    : BitVec 12
  spread : BitVec 8
  code   : BitVec 4
  deriving DecidableEq, Repr

/-- The straps in the order MS, CFG0 to CFG3, BIN0, BIN1, and the role that MS fixes until the next cold start (R1, R115). -/
structure Straps where
  pins : Vector Strap 7
  deriving DecidableEq, Repr

/-- The always-on bring-up and supply state. -/
structure Power where
  mode        : Mode
  prev        : Mode
  raise       : RaiseStep
  /-- RAISE ends in WORKSHOP (R193, or MS code 14). -/
  toWorkshop  : Bool
  /-- TEST was high at power-on-reset release (R75). -/
  factory     : Bool
  /-- VCC is below V_LOW (R85). -/
  vccLow      : Bool
  /-- The mode a pending request names, taken at the next frame tick (R159). -/
  pendingReq  : Option Mode
  /-- Where QUIESCE ends (R203). -/
  sleepTarget : Mode
  /-- A wake held during QUIESCE (R204): its source. -/
  heldWake    : Option Nat
  /-- The start window is open, and the model time at which it opened (R181). -/
  windowOpen  : Bool
  windowStart : Nat
  /-- Start limit and window length taken at the last failed start (R452). -/
  startLimit  : Nat
  windowLen   : Nat
  /-- VDDX as last seen, in millivolts (R79), and whether VCC and VDDX have both stood in their ranges since the cold
  start, so that the X-port pins have left high impedance (R82). -/
  vddxMv      : Nat
  xpValid     : Bool
  /-- XRST# is driven low. -/
  xrstLow     : Bool
  /-- STR_OVERRIDE as the last warm restart took it (R151). -/
  override    : Word
  /-- The WAKE line is pulled low by this device (R255); a pulse is due after a wake, as a request and as a resume. -/
  wakeLow     : Bool
  dueRequest  : Bool
  dueResume   : Bool
  /-- Model time of the first recognised wake source, until the first Lay frame (QTY 0x9 of Table 18.6). -/
  wakeAt      : Option Nat
  /-- LIMP was entered with THERMAL_SHUTDOWN and Tj has not been below 150 °C since (R112). -/
  hotFs       : Bool
  deriving DecidableEq, Repr

/-- Frame counting (01_one_frame.md). -/
structure Clock where
  /-- Slots of the current frame already used. -/
  slot     : Nat
  /-- Length of the current frame in slots (R64). -/
  frameLen : Nat
  /-- Core clocks since the model began to count; the model's own time base. -/
  time     : Nat
  /-- The rate code in force, one written but not yet taken up (R20), and the one of an accepted image or ROM Lay that
  takes effect at the next frame tick (R167). -/
  rate     : BitVec 2
  rateNext : Option (BitVec 2)
  rateDue  : Option (BitVec 2)
  /-- The written rate taken up at the entry to this RAISE; it governs a ROM Lay (R20). -/
  romRate  : Option (BitVec 2)
  /-- What the last frame tick brings with it and is not yet carried out: entry to HOLDOVER (R446), the light tick
  (R49), the end of QUIESCE (R203). -/
  holdDue  : Bool
  lightDue : Bool
  quietDue : Bool
  /-- A START pulse has ended the frame in progress: the next frame tick is its tick, of frame 0 (R659). -/
  startDue : Bool
  /-- CLK_NUDGE.COUNT as it stood before a write in the core clock of the next frame tick (R68). -/
  nudgeEdge : Option Nat
  deriving DecidableEq, Repr

/-- One Hitch level (R370): first and last address of the body, iterations left. -/
structure Hitch where
  first : PAddr
  last  : PAddr
  left  : Nat
  deriving DecidableEq, Repr

/-- A branch whose delay slot has not issued (R363): its address, its target, whether it may end Hitch levels
(a B<cc>, R376, R377), whether the Coil's top takes the address after the delay slot (a CALL, R366), and whether it is
taken. -/
structure Branch where
  addr   : PAddr
  target : PAddr
  isB    : Bool
  isCall : Bool
  taken  : Bool
  deriving DecidableEq, Repr

/-- A MODE waiting behind its shadow (R360, R408): mask and values. -/
structure ModeSet where
  mask : BitVec 4
  vals : BitVec 5
  deriving DecidableEq, Repr

/-- The registers of one context (R323, Table 7.1). -/
structure Ctx where
  a     : Vector Acc 4
  f     : BitVec 6
  bx    : Nat
  p     : Vector Cell 16
  m     : Vector Cell 4
  l     : Vector (BitVec 20) 4
  hitch : List Hitch           -- innermost first, at most 3
  coil  : List PAddr           -- top first, at most 8
  mode  : BitVec 5
  shadow : Option ModeSet
  pc    : PAddr
  branch : Option Branch
  /-- High-cell read latch (R289): register and bits [31:24]. -/
  rlatch : Option (Nat × Byte)
  /-- High-cell write latch (R290). -/
  wlatch : Option (Nat × Byte)
  deriving DecidableEq, Repr

/-- What a multiply does to its accumulators (R416). -/
inductive MulOp where
  | set | add | sub
  deriving DecidableEq, Repr

/-- A multiply in flight (R343): its context, the slot ends still to pass, first accumulator and products. -/
structure InFlight where
  lay   : Bool
  left  : Nat
  op    : MulOp
  base  : Nat
  prods : List Int
  /-- A whole-accumulator source saturated (R403). -/
  sat   : Bool
  deriving DecidableEq, Repr

/-- The Lay and Slack, and what they have in flight. -/
structure Lay where
  lay     : Ctx
  slack   : Ctx
  /-- The Lay is running (LAY_STATUS.IN_LAY). -/
  inLay   : Bool
  /-- The slot in which END issued in this frame, if it has. -/
  endedAt : Option Nat
  /-- The slot in which the ROM Lay of this frame issues END, if one runs in it. -/
  romEnd  : Option Nat
  overran : Bool
  tainted : Bool
  /-- Largest Lay Coil depth of this frame. -/
  coilMax : Nat
  /-- END has issued since heads last advanced (Table 6.5, STEP_ADV). -/
  headsDue : Bool
  /-- Your Slack program has been started (R327), and has yielded in this frame (R425). -/
  slackOn : Bool
  yielded : Bool
  /-- The first Lay frame of this RUN has not begun (R327, R546). -/
  firstRun : Bool
  flight  : List InFlight
  /-- A Strand RAM store not yet written (R269): physical cell and value. -/
  store   : Option (Nat × Cell)
  /-- A step run is issuing in this frame (R208). -/
  stepping : Bool
  /-- The instruction that issues has written LAY_CTRL.STEP (R213). -/
  stepWrote : Bool
  /-- A read of the instruction that issues has found a single-bit error (R13, R273). -/
  corrNow : Bool
  deriving DecidableEq, Repr

/-- The RAMs with an error in one of their words (Table 6.1). -/
inductive RamId where
  | prog0 | prog1 | table0 | table1 | deck | line | strand
  deriving DecidableEq, Repr

/-- A RAM word with a bit error: a double-bit error is uncorrectable (R271, R272). -/
structure EccError where
  ram    : RamId
  addr   : Nat
  double : Bool
  /-- A read found the single-bit error, and the corrected word waits to be written back (R271). -/
  found  : Bool
  deriving DecidableEq, Repr

/-- The RAMs (Table 6.1), the port window's cells (Table 6.6) and the parameters of an attached external memory. -/
structure Mem where
  prog0  : List (Nat × Word)
  prog1  : List (Nat × Word)
  table0 : List (Nat × Cell)
  table1 : List (Nat × Cell)
  deck   : List (Nat × Cell)
  line   : List (Nat × Cell)
  strand : List (Nat × Cell)
  port   : List (Nat × Cell)
  ecc    : List EccError
  /-- Line descriptors whose head-advance error is already logged (Table 6.2). -/
  eccLogged : List Nat
  /-- Bytes of the external devices that the device has written, keyed by device × 2^32 + address, and the epoch of
  the bytes not listed: a direct transaction that may change a memory begins a new one. -/
  ext    : List (Nat × Byte)
  epoch  : Nat
  deriving DecidableEq, Repr

/-- What a page is (R308). -/
inductive Page where
  | frame (writable : Bool) (n : Nat)
  | ext (writable : Bool) (dev : Nat) (pack : Nat) (page : Nat)
  | reel (ch : Nat)
  deriving DecidableEq, Repr

/-- A map cache entry (R308); a larger stamp means used more recently (R310). -/
structure CacheEntry where
  vpn    : Nat
  page   : Page
  pinned : Bool
  stamp  : Nat
  deriving DecidableEq, Repr

/-- The map unit. -/
structure MapUnit where
  cache     : Vector (Option CacheEntry) 32
  nextStamp : Nat
  allowance : Nat
  walks     : Nat
  faults    : Nat
  charged   : Nat
  /-- A pin operation waiting or walking (R315, R897): its page. -/
  pin       : Option Nat
  deriving DecidableEq, Repr

/-- The fault codes of Table 9.3, in the order of their numbers 0x01 to 0x1E. -/
inductive FaultCode where
  | mapMissBudget | mapInvalid | walkDevice | walkEcc | mapProtect | reelStarved | ramEcc
  | coilOverflow | coilUnderflow | illegalOp | frameOverrun | slackStarved | portUnderrun | portOverrun
  | xpTimeout | xpLeaseRevoked | ropeModeFault | ropeLengthReject | ropeCrc | twbSclLow | twbSdaLow
  | halFraming | clkDrift | clkLost | whipMismatch | sinkOpen | sinkShort | thermalDerate | spliceLate | loopMisuse
  deriving DecidableEq, Repr

/-- The context of a log entry (Table 9.6). -/
inductive LogCtx where
  | lay | slack | rom | none
  deriving DecidableEq, Repr

/-- A fault waiting for the log (R456), with the fields of Table 9.6. -/
structure LogItem where
  code   : FaultCode
  ctx    : LogCtx
  ds     : Bool
  mp     : Bool
  le     : Bool
  slot   : Nat
  pc     : PAddr
  frame  : Word
  detail : Word
  deriving DecidableEq, Repr

/-- Cleat: the log queue, the watchdog, the HOLDOVER timer and the fault pin. -/
structure Cleat where
  queue     : List LogItem
  /-- Model time at which the watchdog was last restarted, and whether it runs (R462). -/
  wdogStart : Nat
  wdogOn    : Bool
  /-- FAULT# is driven low; it is inside its 1 ms minimum (R472). -/
  pinLow    : Bool
  pinHold   : Bool
  /-- K and H in force (R452). -/
  kInForce  : Nat
  hInForce  : Nat
  /-- Model time at which HOLDOVER was entered (R449). -/
  holdStart : Nat
  /-- A Lay-context entry has been written or repeated since PEND was cleared (Table 9.10, bit 4). -/
  layPend   : Bool
  deriving DecidableEq, Repr

/-- The Slack event table beside its registers (R330): data words, frame ticks pending with EN at 1, whether starvation is logged, and model time of the post
that made the event pending (QTY 0x2). -/
structure EventTable where
  data   : Vector Cell 22
  age    : Vector Nat 22
  logged : Vector Bool 22
  posted : Vector Nat 22
  deriving DecidableEq, Repr

/-- The splice states (Table 10.2). -/
inductive SpliceState where
  | idle | staging | armed | backfill
  deriving DecidableEq, Repr

/-- The owner of the splice unit (R488). -/
inductive SpliceOwner where
  | none | twb | rope | slack | rom | lay
  deriving DecidableEq, Repr

/-- A cell that glides (R501). -/
structure GlideCell where
  cell : Nat
  old  : Cell
  new  : Cell
  deriving DecidableEq, Repr

/-- How a gain word is applied (R508, R509): as it stands, waiting since some frames, or ramping. -/
inductive GainPhase where
  | steady
  | wait (old new : Cell) (frames limit : Nat)
  | ramp (old new : Cell) (i : Nat)
  /-- The wait has timed out: the ramp begins with the next frame's sample (R509). -/
  | due (old new : Cell)
  deriving DecidableEq, Repr

/-- The splice unit and the banked stores' roles (10_splices.md). -/
structure SpliceUnit where
  state    : SpliceState
  owner    : SpliceOwner
  /-- Model time of the owner's last write (R491), and at which BACKFILL began. -/
  since    : Nat
  /-- Active copies (R497): true selects copy 1. -/
  tableSel : Bool
  progSel  : Bool
  gainSel  : Bool
  gain0    : Vector Cell 16
  gain1    : Vector Cell 16
  /-- Cells marked for the commit being staged (R484). -/
  marks    : List Nat
  /-- A program word was staged for this commit (R496). -/
  progStaged : Bool
  /-- The glide length sampled when the commit was armed, and whether it is armed for the next tick (R493, R494). -/
  armG     : Nat
  armNext  : Bool
  /-- Frame of the last commit to fire (R515). -/
  fired    : Word
  glide    : List GlideCell
  glideK   : Nat
  glideG   : Nat
  /-- Gain state of each slot-channel, and its last audio sample (R506, R507). -/
  gains    : Vector GainPhase 16
  lastSample : Vector Cell 16
  deriving DecidableEq, Repr

/-- The state of a load (R562). -/
inductive LoadState where
  | none | receiving | accepted | refused
  deriving DecidableEq, Repr

/-- A parameter of the image SPLN section (Table 11.6). -/
structure SplnEntry where
  id    : Nat
  cell  : Nat
  mark  : Bool
  glide : Nat
  deriving DecidableEq, Repr

/-- The image loader (11_image_bundle.md). -/
structure Loader where
  state    : LoadState
  overRope : Bool
  /-- The bytes of the load so far, first byte first. -/
  bytes    : List Byte
  /-- The running image's or ROM Lay's Lmax (R41, R42). -/
  lmax     : Nat
  spln     : List SplnEntry
  /-- TWBI bytes still to run (R546), and whether the script has started. -/
  twbi     : List Byte
  twbiOn   : Bool
  deriving DecidableEq, Repr


/-! ### The X-port and the Reel engine (12_xport_and_reels.md) -/

/-- STATE of a channel (Table 12.12); paused is computed from running. -/
inductive ChState where
  | idle | running | done | faulted | error
  deriving DecidableEq, Repr

/-- One Reel channel beside its registers. -/
structure Channel where
  st      : ChState
  err     : Byte
  /-- The buffer the Lay may write now (R616): true is buffer 1. -/
  buf     : Bool
  /-- Position of a reel stream (R609). -/
  pos     : Nat
  margin  : Nat
  /-- Ready pages, and the page that a lease is filling (R611). -/
  ready   : List Nat
  fill    : Option Nat
  /-- The transfer in progress ends at its next burst boundary (R602, R611, R620). -/
  leave   : Bool
  /-- Units done of a copy or image load. -/
  units   : Nat
  /-- A chain feed is waiting or being sent (R618). -/
  sending : Bool
  deriving DecidableEq, Repr

/-- The X-port beside its registers. -/
structure Xport where
  /-- Register writes that wait for an idle port (R577): register and value. -/
  cfgPend    : List (Nat × Word)
  /-- Lease holder (0 to 7 a channel, 8 the loader or a direct transaction) and the model time of the grant. -/
  holder     : Option Nat
  since      : Nat
  /-- Steps 3 to 5 of Table 9.9 are in progress (RECOVERING), since when, and the devices that are reset, one bit each;
  the SFDP read of step 4 has failed, so that device 0 gets no lease (R467). -/
  recovering : Bool
  resetAt    : Nat
  resetDevs  : Nat
  blocked    : Bool
  /-- A direct transaction waits or runs (PEND). -/
  direct     : Bool
  sfdpOk     : Bool
  /-- What device 0's SFDP held at bring-up, its entry sequence (R579, R584), and the commands last sent to it. -/
  sfdp       : Option Sfdp
  entry      : List (List Byte)
  entrySent  : List (List Byte)
  /-- Slack reads under way: device × 2^32 + address, the model time at which each ends, and whether it ends by TIMEOUT
  (R304, R594). -/
  slackReads : List (Nat × Nat × Bool)
  /-- The I/O mode selected in RAISE (R79): 0 absent, 1 for 1.8 V, 2 for 3.3 V. -/
  io         : Nat
  deriving DecidableEq, Repr

/-! ### The rope (13_rope.md) -/

/-- A reply to a protocol request (R644). -/
structure Reply where
  seq     : Byte
  result  : Byte
  payload : List Word
  rcrc    : Bool
  deriving DecidableEq, Repr

/-- A request that the ROM manager service has sent (R670): header and payload, the retries made, and the slot of its
RSS# fall (R663). -/
structure SvcAsk where
  code  : Byte
  words : List Word
  tries : Nat
  slot  : Nat
  deriving DecidableEq, Repr

/-- A task of the ROM manager service at a code (Table 13.8), or a request to send again (R670). -/
inductive SvcTask where
  | chunk | setFrame | status | time
  | nudge (count : Int)
  | cells (values : List Cell)
  | again (ask : SvcAsk)
  deriving DecidableEq, Repr

/-- The ROM manager service (Table 13.8). -/
structure Service where
  /-- The code that the polling round has reached, and the tasks that wait. -/
  code     : Byte
  todo     : List (Byte × SvcTask)
  /-- Requests whose replies are not collected, one at a code; the next sequence byte. -/
  asks     : List SvcAsk
  seq      : Byte
  /-- Codes whose last status byte was READY, and those whose frame number was set since they were found (R661). -/
  ready    : List Byte
  numbered : List Byte
  /-- Next offset of the bundle at a code (R665), and the values last sent to it under ROM Lay 11. -/
  offsets  : List (Byte × Nat)
  strip    : List (Byte × List Cell)
  deriving DecidableEq, Repr

/-- A transfer on the rope port (R640): a chain feed, or one started through ROP_XFER: its code, words and their width,
whether it receives and checks the reply, and the words it sends; or an exchange of the ROM manager service. -/
inductive Job where
  | feed (ch : Nat) (code : Byte) (cells : List Cell)
  | xfer (code : Byte) (raw : Bool) (words width : Nat) (receives rchk : Bool) (out : List Word)
  | service (ask : SvcAsk) (out : List Word)
  deriving DecidableEq, Repr

/-- A request whose reply a later transfer to the same code may echo (QTY 0x8 of Table 18.6). -/
structure Asked where
  code : Byte
  seq  : Byte
  time : Nat
  deriving DecidableEq, Repr

/-- The rope port beside its registers. -/
structure Rope where
  /-- Reply for the next exchange; reply of the request that executes; reply of the last executed request. -/
  reply    : Reply
  next     : Option Reply
  last     : Option Reply
  lenErr   : Bool
  /-- Words sent in the last exchange or transfer. -/
  sent     : List Word
  tx       : List (Nat × Word)
  rx       : List (Nat × Word)
  /-- Transfers in order, the first in progress. -/
  wire     : List Job
  /-- Select code last used, and the model time of the last RSS# fall. -/
  lastCode : Byte
  fallTime : Nat
  asked    : List Asked
  /-- What the ROM manager service last found at each code (R672). -/
  found    : List Found
  svc      : Service
  deriving DecidableEq, Repr

/-! ### The two-wire bus (14_two_wire_bus.md) -/

/-- A controller transfer waiting or in progress (R708 to R719). -/
structure TwbJob where
  addr   : BitVec 7
  wlen   : Nat
  rlen   : Nat
  pec    : Bool
  tries  : Nat
  /-- It is a step of the TWBI script (R719). -/
  script : Bool
  deriving DecidableEq, Repr

/-- The two-wire bus port beside its registers. -/
structure Twb where
  ptr    : Byte
  page   : Byte
  /-- Acknowledge bits the device gave and bytes it sent in the last transfer to it. -/
  acks   : List Bool
  sent   : List Byte
  /-- A Slack-served command executes: code and data (R691). -/
  slack  : Option (Byte × List Byte)
  /-- The stored reply: code, result, data (R692). -/
  reply  : Byte × Byte × List Byte
  cbuf   : List (Nat × Byte)
  job    : Option TwbJob
  result : BitVec 4
  sdaWait : Bool
  /-- Model time of the first recovery since SDA stuck (R717). -/
  stuckAt : Option Nat
  deriving DecidableEq, Repr

/-! ### The Halyard port (15_halyard_port.md) -/

/-- A frame-table entry (Table 15.2). -/
structure FrameEntry where
  id      : Nat
  len     : Nat
  publish : Bool
  classic : Bool
  kind    : Nat
  off     : Nat
  width   : Nat
  isSigned : Bool
  param   : Nat
  deriving DecidableEq, Repr

/-- Where the LIN receiver stands: waiting for a break, for sync, for a PID, collecting a subscribed frame
(entry number, or none for 0x3C), or publishing. -/
inductive LinPhase where
  | wait | sync | pid
  | data (pid : Byte) (entry : Option Nat) (len : Nat) (bytes : List Byte)
  | publish (pid : Byte) (entry : Nat)
  deriving DecidableEq, Repr

/-- The LIN wake-up signal (R260 to R262): idle, the n-th signal of a block is driven, or n signals were sent. -/
inductive LinWake where
  | idle | signal (n : Nat) | waiting (n : Nat)
  deriving DecidableEq, Repr

/-- The Halyard port beside its registers. -/
structure Hal where
  /-- A HAL_CFG write waiting for the character in progress (R722). -/
  cfgPend  : Option Word
  rx       : List (BitVec 10)
  tx       : List Byte
  shift    : Option Byte
  txEmpty  : Bool
  phase    : LinPhase
  lastPid  : Byte
  /-- The bit period adopted from the sync byte for this frame (R736). -/
  period   : Option Nat
  table    : List FrameEntry
  romProf  : Bool
  /-- Published response data of each entry, as last refreshed (R745). -/
  resp     : List (List Byte)
  /-- Bytes last sent on LTX in LIN mode. -/
  sent     : List Byte
  trigA    : Bool
  trigB    : Bool
  respErr  : Bool
  /-- Values kept for a retry (R747): entry number and cell value. -/
  keep     : List (Nat × Cell)
  wake     : LinWake
  /-- A wake-up signal is due and has not started (R756, R757). -/
  wakeDue  : Bool
  /-- A valid LIN frame has been received since the last RAISE (R246). -/
  heard    : Bool
  deriving DecidableEq, Repr

/-! ### Audio (16_audio_ports.md) -/

/-- Converter states (Table 16.5). -/
inductive AsrState where
  | off | noClock | acquiring | locked
  deriving DecidableEq, Repr

/-- A sample-rate converter. -/
structure Asr where
  st    : AsrState
  ratio : Word
  ms    : Byte
  held  : Nat
  /-- Samples of the rise of R787 already made, 64 when it is over. -/
  ramp  : Nat
  deriving DecidableEq, Repr

/-- The factor on the output samples (R201, R801): full; falling from num/den for pos frames of 10 ms; rising from it; or
kept where it stood when QUIESCE began. -/
inductive Fade where
  | full
  | down (num den pos : Nat)
  | up (num den pos : Nat)
  | kept (num den : Nat)
  deriving DecidableEq, Repr

/-- The audio ports beside their registers and cells. -/
structure Audio where
  /-- Output slot-channels written in this frame, one bit each: 0 to 7 Port A, 8 to 15 Port C. -/
  written : BitVec 16
  /-- Samples passed to the ports at the last frame tick. -/
  out     : Vector Cell 16
  fade    : Fade
  /-- AFS and BFS show edges (Table 16.11). -/
  aEdges  : Bool
  bEdges  : Bool
  /-- QUIESCE mutes every slot-channel (R202). -/
  muting  : Bool
  /-- The mute of each slot-channel, after its gain word (R202, R512). -/
  mutes   : Vector GainPhase 16
  asrIn   : Asr
  asrOut  : Asr
  deriving DecidableEq, Repr

/-! ### Light (17_light_outputs.md) -/

/-- What one sink has in force since the last light tick (R814). -/
structure SinkLatch where
  code : Nat
  duty : Nat
  en   : Bool
  slew : Bool
  kcol : Nat
  deriving DecidableEq, Repr

/-- A diagnostics verdict (R826). -/
inductive Verdict3 where
  | good | opened | shorted
  deriving DecidableEq, Repr

/-- Diagnostics of one sink (Table 17.3). -/
structure SinkDiag where
  last    : Nat
  ref     : Nat
  noMeas  : Bool
  verdict : Verdict3
  deriving DecidableEq, Repr

/-- The sinks beside their registers. -/
structure Light where
  latch   : Vector SinkLatch 24
  /-- Model time at which the PWM period in progress began (R49, R53). -/
  pwmStart : Nat
  mult    : Nat
  /-- F in force since the last light tick, F of the last measurement, and the last die temperature in 0.1 °C. -/
  f       : Nat
  fNext   : Nat
  tj      : Int
  measured : Bool
  ntc0    : BitVec 12
  ntc1    : BitVec 12
  ntcBad0 : Bool
  ntcBad1 : Bool
  /-- The NTC inputs have been measured since reset. -/
  ntcSeen : Bool
  dieRaw  : BitVec 12
  /-- Fail-safe masks and codes in force since the last light tick or strap reload (R830). -/
  fs      : Vector Word 3
  diag    : Vector SinkDiag 24
  /-- The sink whose step is in progress, whether its sample is taken, and the light ticks it has lasted. -/
  step    : Option Nat
  sampled : Bool
  lasted  : Nat
  gapLeft : Nat
  lastCh  : Nat
  /-- Register writes that wait for the end of the step (R825). -/
  waiting : List (Nat × Word)
  /-- Hand-over glide (R832): frames since the first Lay frame, start levels in 1/65535 and start codes. -/
  handover : Option Nat
  startLevel : Vector Nat 24
  startCode  : Vector Nat 24
  /-- Light ticks of the QUIESCE fade done, 64 when over (R202). -/
  fade    : Nat
  irefLow : Bool
  irefHigh : Bool
  ifs     : Nat
  deriving DecidableEq, Repr

/-! ### Whipping units and Tally monitors (18_whipping_and_tally.md) -/

/-- Settings of a computation, taken at START (R840). -/
structure WhipSet where
  width  : Nat
  poly   : Word
  init   : Word
  xorout : Word
  refin  : Bool
  refout : Bool
  deriving DecidableEq, Repr

/-- One Whipping unit beside its registers. -/
structure Whip where
  set    : WhipSet
  crc    : Word
  /-- RESULT: 0 until a START. -/
  result : Word
  queue  : List Byte
  poison : Bool
  /-- A compare waits for this many queued bytes (R849). -/
  check  : Option Nat
  matched : Bool
  /-- Bits [31:24] of FEED32's last write (R842). -/
  high   : Byte
  deriving DecidableEq, Repr

/-- Statistics of one monitor (Table 18.8). -/
structure Monitor where
  min    : Cell
  max    : Cell
  count  : Word
  halves : Byte
  bins   : Vector (BitVec 16) 16
  deriving DecidableEq, Repr

/-- A sample taken and not yet counted (R862), with the bin fields it was taken under (R867). -/
structure Sample where
  unit  : Nat
  v     : Cell
  shift : Nat
  base  : Int
  deriving DecidableEq, Repr

structure Tally where
  mons : Vector Monitor 8
  due  : List Sample
  deriving DecidableEq, Repr

/-! ### Clocks (05_clocks_references_wake.md) -/

/-- The reference selection and monitor beside their registers. -/
structure ClkUnit where
  primary   : Nat
  secondary : Nat
  /-- Qualified sources, bit c for source code c of Table 5.1. -/
  qual      : BitVec 5
  locked    : Bool
  hold      : Bool
  slewing   : Bool
  aligning  : Bool
  follow    : Bool
  /-- Core clocks the frame tick still has to move (R237): positive lengthens frames. -/
  alignLeft : Int
  /-- The decision for the pair: 0 NORMAL, 1 DRIFT, 2 DISAGREE. -/
  decision  : Nat
  /-- Deviations of the last eight windows, newest first; windows since the pair was formed; windows of DRIFT. -/
  devs      : List Int
  windows   : Nat
  driftRun  : Nat
  last      : Int
  avg       : Int
  /-- Consecutive windows in which each source code has measured within ±250 ppm of the primary (R239). -/
  passes    : Vector Nat 5
  deriving DecidableEq, Repr

/-! ### ROM Lays and pins -/

/-- The ROM Lay that runs, if one does, and what its behaviour of Table 3.4 remembers. -/
structure RomLay where
  code     : Option Nat
  /-- Levels shown, and the start and end of the glide in progress, in 1/256 of a current-scale code. -/
  shown    : Vector Nat 24
  start    : Vector Nat 24
  target   : Vector Nat 24
  /-- Light ticks of each sink's glide done, 16 when it is over. -/
  glideK   : Vector Nat 24
  /-- Inputs at the last light tick. -/
  fs       : BitVec 3
  trigA    : Bool
  /-- Light ticks since the last rising edge of FS2; since trigger A rose, or the flash of ROM Lay 7 or the run of ROM
  Lay 13 began; since the start; since the last CELLS request. -/
  sweep    : Option Nat
  trig     : Option Nat
  ticks    : Nat
  cellsAge : Nat
  /-- Peak of Port B since the last light tick (ROM Lay 10). -/
  peak     : Nat
  /-- Frames since the sound in progress began, and trigger A at the last frame tick (Table 3.4). -/
  tone     : Option Nat
  toneTrig : Bool
  deriving DecidableEq, Repr

/-- Levels at input pins as last seen. -/
structure Pins where
  fs   : BitVec 3
  gpio : BitVec 8
  deriving DecidableEq, Repr

/-- The stop reasons: no rule of the spec makes the block itself stop. -/
inductive Fault where
  deriving DecidableEq, Repr

/-- Refusals. -/
inductive Refusal where
  /-- Raised by a dispatch arm whose command has no meaning yet; safe, since nothing can be proved of it. -/
  | notModelled (mnemonic : String)
  deriving DecidableEq, Repr

/-- The state of the LS4096. -/
structure State where
  pending  : List Instr
  straps   : Straps
  power    : Power
  clock    : Clock
  clk      : ClkUnit
  /-- The register file: register 64 × page + index (19_register_index.md). -/
  regs     : List (Nat × Word)
  /-- Register writes that wait for the next frame tick. -/
  tickPend : List (Nat × Word)
  lay      : Lay
  mem      : Mem
  map      : MapUnit
  cleat    : Cleat
  events   : EventTable
  splice   : SpliceUnit
  loader   : Loader
  xp       : Xport
  reel     : Vector Channel 8
  rope     : Rope
  twb      : Twb
  hal      : Hal
  audio    : Audio
  light    : Light
  whip     : Vector Whip 4
  tally    : Tally
  rom      : RomLay
  pins     : Pins
  /-- Free values read so far; the model's own counter, not the spec's. -/
  free     : Nat
  deriving DecidableEq, Repr

/-! ### Reset -/

def Strap.init : Strap := ⟨false, 0, 0, 0⟩

def Power.init : Power :=
  { mode := .raise, prev := .off, raise := .reference, toWorkshop := false, factory := false,
    vccLow := false, pendingReq := none, sleepTarget := .dormant, heldWake := none, windowOpen := false,
    windowStart := 0, startLimit := 3, windowLen := 10, vddxMv := 0, xpValid := false, xrstLow := true, override := 0, wakeLow := false,
    dueRequest := false, dueResume := false, wakeAt := none, hotFs := false }

def Clock.init : Clock :=
  { slot := 0, frameLen := 4096, time := 0, rate := 1, rateNext := none, rateDue := none, romRate := none, holdDue := false,
    lightDue := false, quietDue := false, startDue := false, nudgeEdge := none }

def Ctx.init : Ctx :=
  { a := Vector.replicate 4 0, f := 0, bx := 23, p := Vector.replicate 16 0, m := Vector.replicate 4 0,
    l := Vector.replicate 4 0, hitch := [], coil := [], mode := 0x06, shadow := none, pc := 0, branch := none,
    rlatch := none, wlatch := none }

def Lay.init : Lay :=
  { lay := Ctx.init, slack := Ctx.init, inLay := false, endedAt := none, romEnd := none, overran := false, tainted := false,
    coilMax := 0, headsDue := false, slackOn := false, yielded := false, firstRun := true, flight := [],
    store := none, stepping := false, stepWrote := false, corrNow := false }

def Mem.init : Mem :=
  { prog0 := [], prog1 := [], table0 := [], table1 := [], deck := [], line := [], strand := [], port := [], ecc := [],
    eccLogged := [], ext := [], epoch := 0 }

def MapUnit.init : MapUnit :=
  { cache := Vector.replicate 32 none, nextStamp := 0, allowance := 0, walks := 0, faults := 0, charged := 0,
    pin := none }

def Cleat.init : Cleat :=
  { queue := [], wdogStart := 0, wdogOn := false, pinLow := true, pinHold := false, kInForce := 8, hInForce := 20,
    holdStart := 0, layPend := false }

def EventTable.init : EventTable :=
  { data := Vector.replicate 22 0, age := Vector.replicate 22 0, logged := Vector.replicate 22 false,
    posted := Vector.replicate 22 0 }

def SpliceUnit.init : SpliceUnit :=
  { state := .idle, owner := .none, since := 0, tableSel := false, progSel := false, gainSel := false,
    gain0 := Vector.replicate 16 0x008000, gain1 := Vector.replicate 16 0x008000, marks := [], progStaged := false,
    armG := 0, armNext := false, fired := 0, glide := [], glideK := 0, glideG := 0,
    gains := Vector.replicate 16 .steady, lastSample := Vector.replicate 16 0 }

def Loader.init : Loader :=
  { state := .none, overRope := false, bytes := [], lmax := 0, spln := [], twbi := [], twbiOn := false }

def Channel.init : Channel :=
  { st := .idle, err := 0, buf := false, pos := 0, margin := 0, ready := [], fill := none, leave := false, units := 0,
    sending := false }

def Xport.init : Xport :=
  { cfgPend := [], holder := none, since := 0, recovering := false, resetAt := 0, resetDevs := 0, blocked := false,
    direct := false, sfdpOk := false, sfdp := none, entry := [], entrySent := [], slackReads := [], io := 0 }

def Rope.init : Rope :=
  { reply := ⟨0, 0, [], false⟩, next := none, last := none, lenErr := false, sent := [], tx := [], rx := [], wire := [],
    lastCode := 0, fallTime := 0, asked := [], found := [],
    svc := ⟨0, [], [], 0, [], [], [], []⟩ }

def Twb.init : Twb :=
  { ptr := 0, page := 0, acks := [], sent := [], slack := none, reply := (0, 0, []), cbuf := [], job := none,
    result := 0, sdaWait := false, stuckAt := none }

/-- The ROM profile (Table 15.4). -/
def romProfile : List FrameEntry := [
  ⟨0x10, 1, false, false, 0x02, 0, 0, false, 0⟩, ⟨0x30, 8, true, false, 0x03, 0, 0, false, 0⟩,
  ⟨0x31, 8, true, false, 0x05, 0, 0, false, 0⟩, ⟨0x32, 8, true, false, 0x06, 0, 0, false, 0⟩]

def Hal.init : Hal :=
  { cfgPend := none, rx := [], tx := [], shift := none, txEmpty := true, phase := .wait, lastPid := 0, period := none,
    table := romProfile, romProf := true, resp := [[], [], [], []], sent := [], trigA := false, trigB := false,
    respErr := false, keep := [], wake := .idle, wakeDue := false, heard := false }

def Asr.init : Asr := { st := .off, ratio := 0, ms := 0, held := 0, ramp := 64 }

def Audio.init : Audio :=
  { written := 0, out := Vector.replicate 16 0, fade := .full, aEdges := false, bEdges := false, muting := false, mutes := Vector.replicate 16 .steady,
    asrIn := Asr.init, asrOut := Asr.init }

def Light.init : Light :=
  { latch := Vector.replicate 24 ⟨255, 0, false, false, 256⟩, pwmStart := 0, mult := 256, f := 256, fNext := 256, tj := 0,
    measured := false, ntc0 := 0, ntc1 := 0, ntcBad0 := false, ntcBad1 := false, ntcSeen := false, dieRaw := 0,
    fs := Vector.replicate 3 0, diag := Vector.replicate 24 ⟨0, 0, false, .good⟩, step := none, sampled := false,
    lasted := 0, gapLeft := 0, lastCh := 23, waiting := [], handover := none, startLevel := Vector.replicate 24 0,
    startCode := Vector.replicate 24 0, fade := 0, irefLow := false, irefHigh := false, ifs := 0 }

def Whip.init : Whip :=
  { set := ⟨32, 0x04C11DB7, 0xFFFFFFFF, 0xFFFFFFFF, true, true⟩, crc := 0, result := 0, queue := [], poison := false,
    check := none, matched := false, high := 0 }

def Monitor.init : Monitor := { min := 0x7FFFFF, max := 0x800000, count := 0, halves := 0, bins := Vector.replicate 16 0 }

def Tally.init : Tally := { mons := Vector.replicate 8 Monitor.init, due := [] }

def ClkUnit.init : ClkUnit :=
  { primary := 0, secondary := 0, qual := 0, locked := false, hold := false, slewing := false, aligning := false,
    follow := false, alignLeft := 0, decision := 0, devs := [], windows := 0, driftRun := 0, last := 0, avg := 0,
    passes := Vector.replicate 5 0 }

def RomLay.init : RomLay :=
  { code := none, shown := Vector.replicate 24 0, start := Vector.replicate 24 0, target := Vector.replicate 24 0,
    glideK := Vector.replicate 24 16, fs := 0, trigA := false, sweep := none, trig := none, ticks := 0, cellsAge := 0, peak := 0,
    tone := none, toneTrig := false }

/-- The machine right after the release of the power-on reset (R177, R875): in RAISE, every register at the reset value
of Tables 19.2 to 19.4, the straps not yet decided, every RAM clear, nothing waiting. -/
def State.reset : State :=
  { pending := [], straps := ⟨Vector.replicate 7 Strap.init⟩, power := Power.init, clock := Clock.init,
    clk := ClkUnit.init, regs := [], tickPend := [], lay := Lay.init, mem := Mem.init, map := MapUnit.init,
    cleat := Cleat.init, events := EventTable.init, splice := SpliceUnit.init, loader := Loader.init, xp := Xport.init,
    reel := Vector.replicate 8 Channel.init, rope := Rope.init, twb := Twb.init, hal := Hal.init, audio := Audio.init,
    light := Light.init, whip := Vector.replicate 4 Whip.init, tally := Tally.init, rom := RomLay.init,
    pins := ⟨0, 0⟩, free := 0 }

end Sys2Proof.Machine
end

