-- ==== Sys2Proof/Machine/Store.lean ====
section
/-! DEFINITION. Sparse stores: a list of (address, value) pairs with addresses strictly rising and no entry equal to
what an unlisted address reads as. Register file, RAMs and port cells are all held so; a write keeps the form. -/

namespace Sys2Proof.Machine

/-- What address a holds: the listed value, else what an unlisted address reads as. -/
def sget {w : Nat} (d : Nat → BitVec w) : List (Nat × BitVec w) → Nat → BitVec w
  | [], a => d a
  | (b, v) :: m, a => if a = b then v else sget d m a

/-- The store without address a. -/
def serase {w : Nat} : List (Nat × BitVec w) → Nat → List (Nat × BitVec w)
  | [], _ => []
  | (b, v) :: m, a => if a = b then serase m a else (b, v) :: serase m a

/-- The store with address a listed as v, in its place. -/
def sinsert {w : Nat} : List (Nat × BitVec w) → Nat → BitVec w → List (Nat × BitVec w)
  | [], a, v => [(a, v)]
  | (b, x) :: m, a, v =>
    if a < b then (a, v) :: (b, x) :: m
    else if a = b then (a, v) :: m
    else (b, x) :: sinsert m a v

/-- Write v at a: an address that then holds what an unlisted one reads as is not listed. -/
def sput {w : Nat} (d : Nat → BitVec w) (m : List (Nat × BitVec w)) (a : Nat) (v : BitVec w) : List (Nat × BitVec w) :=
  if v = d a then serase m a else sinsert m a v

/-- Addresses strictly rising from a lower bound. -/
def srising {w : Nat} : List (Nat × BitVec w) → Nat → Bool
  | [], _ => true
  | (b, _) :: m, lo => decide (lo ≤ b) && srising m (b + 1)

/-- The canonical form of a store. -/
def swf {w : Nat} (d : Nat → BitVec w) (m : List (Nat × BitVec w)) : Bool :=
  srising m 0 && m.all (fun e => e.2 != d e.1)

/-- Every unlisted RAM word reads 0: RAISE clears every RAM with valid check bits (R165, Table 4.6 step 6). -/
def zero {w : Nat} (_ : Nat) : BitVec w := 0

end Sys2Proof.Machine
end

