-- ==== Sys2Proof/Machine/Ops.lean ====
section
/-! DEFINITION. Named operations over State: the register file, status flags and their events, the fault log, model
time, and the work in flight that time completes. -/

namespace Sys2Proof.Machine

/-- The row of the register map that holds register r, if there is one. -/
def regRow (r : Nat) : Option RegRow :=
  (regRows (r / 64)).find? (fun row =>
    decide (row.first ≤ r) && (r - row.first) % row.stride == 0 && decide ((r - row.first) / row.stride < row.count))

/-- The reset value of register r (R875): 0 where Tables 19.2 to 19.4 give 0 or no register stands there. -/
def regReset (r : Nat) : Word := ((regRow r).map (·.reset)).getD 0

/-- Register r as the register file holds it. -/
def getReg (s : State) (r : Nat) : Word := sget regReset s.regs r

/-- Register r replaced in the register file. -/
def setReg (s : State) (r : Nat) (w : Word) : State := { s with regs := sput regReset s.regs r w }

/-- Bits [hi:lo] of register r. -/
def getF (s : State) (r hi lo : Nat) : Nat := fld (getReg s r) hi lo

/-- Bit n of register r. -/
def getB (s : State) (r n : Nat) : Bool := bit (getReg s r) n

/-- Bits [hi:lo] of register r replaced. -/
def setF (s : State) (r hi lo v : Nat) : State := setReg s r (putFld (getReg s r) hi lo v)

/-- Bit n of register r replaced. -/
def setB (s : State) (r n : Nat) (b : Bool) : State := setReg s r (putBit (getReg s r) n b)

/-- A count in bits [hi:lo] of register r goes up by 1 and stays at its largest value. -/
def countUp (s : State) (r hi lo : Nat) : State := setF s r hi lo (satInc (getF s r hi lo) (2 ^ (hi + 1 - lo) - 1))

/-- The current frame number (R54). -/
def frameNo (s : State) : Word := getReg s Reg.sysFrame

/-! ### FAULT# (R470 to R475) -/

/-- The sources of Table 9.10 that are active, one bit each. -/
def pinActive (s : State) : Nat :=
  b2n (s.power.mode == .holdover)
  + 2 * b2n ((List.range 24).any (fun n => getF s (Reg.snkDiag n) 31 30 != 0))
  + 4 * b2n (getB s Reg.clkStatus 26)
  + 8 * b2n (decide (s.light.fNext < 256))
  + 16 * b2n (getB s Reg.cltLogHead 20 && s.cleat.layPend)
  + 32 * b2n ((List.range 4).any (fun u => getB s (Reg.whp u 9) 2))
  + 64 * b2n (getB s Reg.cltLease 26)
  + 128 * b2n (getB s Reg.pwrVmon 30)

/-- An enabled source is active (R471). -/
def pinSourced (s : State) : Bool := Nat.land (pinActive s) (getF s Reg.sysFaultPin 7 0) != 0

/-- Whether the rules drive FAULT# low in the current mode (R470, R471, R473, R474). -/
def pinWanted (s : State) : Bool :=
  match s.power.mode with
  | .raise | .limp => true
  | .run | .holdover | .workshop | .quiesce =>
    pinSourced s || getB s Reg.sysFaultPin 15 || (getB s Reg.sysFaultPin 14 && getB s Reg.sysFaultPin 13)
  | .dormant | .standby => s.cleat.pinLow
  | .off => false

/-- The modes in which the sources of Table 9.10 drive the pin. -/
def pinModes (m : Mode) : Bool := m == .run || m == .holdover || m == .workshop || m == .quiesce

/-- FAULT# follows its sources: a fall begins the 1 ms minimum (R472), a source latches under LATCH (R473). -/
def pinSettle (s : State) : State :=
  let s := if pinModes s.power.mode && pinSourced s && getB s Reg.sysFaultPin 14 then setB s Reg.sysFaultPin 13 true else s
  if pinWanted s then
    if s.cleat.pinLow then s else { s with cleat := { s.cleat with pinLow := true, pinHold := true } }
  else if s.cleat.pinHold then s
  else { s with cleat := { s.cleat with pinLow := false } }

/-- A post of event e (R331): its pending bit is set, its data word becomes f of what it was, and an event that was
not pending begins to age (R334). -/
def postEvent (s : State) (e : Nat) (f : Cell → Cell) : State :=
  let d := vget s.events.data e 0
  let fresh := !getB s Reg.layEvtPend e
  let ev := { s.events with
    data := vset s.events.data e (f d),
    age := if fresh then vset s.events.age e 0 else s.events.age,
    posted := if fresh then vset s.events.posted e s.clock.time else s.events.posted,
    logged := if fresh then vset s.events.logged e false else s.events.logged }
  setB { s with events := ev } Reg.layEvtPend e true

/-- A SYS_EVENTS flag is set; with its SYS_EVENT_EN bit at 1 it posts the system event (R877, Table 7.1a). -/
def sysEvent (s : State) (k : Nat) : State :=
  let s := setB s Reg.sysEvents k true
  if getB s Reg.sysEventEn k then postEvent s 16 (fun d => d ||| BitVec.ofNat 24 (2 ^ k)) else s

/-- A W1C flag of a status register is set, and the SYS_EVENTS flag of its group with it (Table 19.5). -/
def raiseFlag (s : State) (r n k : Nat) : State := sysEvent (setB s r n true) k

/-- The number of a fault code (Table 9.3). -/
def faultNo : FaultCode → Nat
  | .mapMissBudget => 0x01 | .mapInvalid => 0x02 | .walkDevice => 0x03 | .walkEcc => 0x04 | .mapProtect => 0x05
  | .reelStarved => 0x06 | .ramEcc => 0x07 | .coilOverflow => 0x08 | .coilUnderflow => 0x09 | .illegalOp => 0x0A
  | .frameOverrun => 0x0B | .slackStarved => 0x0C | .portUnderrun => 0x0D | .portOverrun => 0x0E | .xpTimeout => 0x0F
  | .xpLeaseRevoked => 0x10 | .ropeModeFault => 0x11 | .ropeLengthReject => 0x12 | .ropeCrc => 0x13
  | .twbSclLow => 0x14 | .twbSdaLow => 0x15 | .halFraming => 0x16 | .clkDrift => 0x17 | .clkLost => 0x18
  | .whipMismatch => 0x19 | .sinkOpen => 0x1A | .sinkShort => 0x1B | .thermalDerate => 0x1C | .spliceLate => 0x1D
  | .loopMisuse => 0x1E

/-- The CTX code of a log entry (Table 9.6). -/
def logCtxNo : LogCtx → Nat
  | .lay => 0 | .slack => 1 | .rom => 2 | .none => 3

/-- A fault that is not logged (R456, R458): DROPPED goes up and DROP is set. -/
def logDrop (s : State) : State := setB (countUp s Reg.cltLogHead 31 24) Reg.cltLogHead 23 true

/-- A fault is handed to Cleat (R456): it waits in the queue of 4, or is dropped when the queue is full or the log frozen. -/
def logPush (s : State) (it : LogItem) : State :=
  if getB s Reg.cltLogHead 22 || decide (s.cleat.queue.length ≥ 4) then logDrop s
  else { s with cleat := { s.cleat with queue := s.cleat.queue ++ [it] } }

/-- A fault that comes before those found from place n of the queue on, in the order of one core clock (R456): Lay, Slack,
ROM, then faults with no instruction. -/
def logInsert (s : State) (n : Nat) (it : LogItem) : State :=
  if getB s Reg.cltLogHead 22 || decide (n ≥ 4) then logDrop s
  else
    let q := s.cleat.queue.take n ++ it :: s.cleat.queue.drop n
    let s := { s with cleat := { s.cleat with queue := q.take 4 } }
    if q.length > 4 then logDrop s else s

/-- A fault with no instruction (CTX 0b11, PC 0) found now. -/
def logHw (s : State) (code : FaultCode) (detail : Word) : State :=
  logPush s ⟨code, .none, false, false, false, s.clock.slot, 0, frameNo s, detail⟩

/-- Word 0 of the entry a fault makes (Table 9.6). -/
def logWord0 (it : LogItem) : Word :=
  BitVec.ofNat 32 (faultNo it.code * 2 ^ 24 + logCtxNo it.ctx * 2 ^ 22 + b2n it.ds * 2 ^ 21 + b2n it.mp * 2 ^ 20
    + b2n it.le * 2 ^ 19 + 2 ^ 18)

/-- Whether a fault repeats the newest valid entry (R455). -/
def logRepeats (s : State) (it : LogItem) : Bool :=
  let e := (getF s Reg.cltLogHead 3 0 + 15) % 16
  let w0 := getReg s (Reg.log e 0)
  bit w0 18 && fld w0 31 24 == faultNo it.code && fld w0 23 22 == logCtxNo it.ctx
    && getF s (Reg.log e 1) 12 0 == it.pc.toNat
    && (it.ctx != .none || getReg s (Reg.log e 3) == it.detail)

/-- One fault enters the log: a REPEAT of the newest entry, or a new entry at NEXT (R455 to R457). -/
def logEnter (s : State) (it : LogItem) : State :=
  let next := getF s Reg.cltLogHead 3 0
  let s1 :=
    if logRepeats s it then countUp s (Reg.log ((next + 15) % 16) 0) 17 8
    else
      let s := setReg s (Reg.log next 0) (logWord0 it)
      let s := setReg s (Reg.log next 1) (BitVec.ofNat 32 (it.slot % 65536 * 65536 + it.pc.toNat))
      let s := setReg s (Reg.log next 2) it.frame
      let s := setReg s (Reg.log next 3) it.detail
      countUp (setF s Reg.cltLogHead 3 0 ((next + 1) % 16)) Reg.cltLogHead 15 8
  let s2 := if it.ctx == .lay then { s1 with cleat := { s1.cleat with layPend := true } } else s1
  pinSettle (sysEvent (setB s2 Reg.cltLogHead 20 true) 0)

/-- Cleat's work of one core clock (R456): the oldest waiting fault is written, or dropped while FREEZE is 1. -/
def logStep (s : State) : State :=
  match s.cleat.queue with
  | [] => s
  | it :: rest =>
    let s := { s with cleat := { s.cleat with queue := rest } }
    if getB s Reg.cltLogHead 22 then logDrop s else logEnter s it

/-- The limit of R335. -/
def accLimit (v : Int) : Int := if v > 2 ^ 54 - 1 then 2 ^ 54 - 1 else if v < -(2 ^ 54) then -(2 ^ 54) else v

/-- Lane k onward of a multiply's update (R416, R335), and whether a lane reached a limit. -/
def mulLanes (op : MulOp) : List Int → Nat → Vector Acc 4 → Bool → Vector Acc 4 × Bool
  | [], _, a, lim => (a, lim)
  | p :: ps, k, a, lim =>
    let old := (vget a k 0).toInt
    let v := match op with
      | .set => p
      | .add => old + p
      | .sub => old - p
    mulLanes op ps (k + 1) (vset a k (toBits 56 (accLimit v))) (lim || accLimit v != v)

/-- A multiply completes in its context (R343, R353, R417): accumulators, then V, and S when V is 1 or a
whole-accumulator source saturated (R403). -/
def mulApply (c : Ctx) (m : InFlight) : Ctx :=
  let (a, lim) := mulLanes m.op m.prods m.base c.a false
  let f := c.f.toNat
  let f := if lim then nset f 1 else nclr f 1
  let f := if lim || m.sat then nset f 4 else f
  { c with a := a, f := BitVec.ofNat 6 f }

/-- A multiply completes into the context that issued it (R31, R378). -/
def mulComplete (l : Lay) (m : InFlight) : Lay :=
  if m.lay then { l with lay := mulApply l.lay m } else { l with slack := mulApply l.slack m }

/-- The multiplies due within n slot ends complete, in issue order; the others come n slot ends nearer. -/
def flightPass (l : Lay) (n : Nat) : Lay :=
  let due := l.flight.filter (fun m => decide (m.left ≤ n))
  let rest := (l.flight.filter (fun m => decide (n < m.left))).map (fun m => { m with left := m.left - n })
  due.foldl mulComplete { l with flight := rest }

/-- A waiting Strand RAM store is written (R269). -/
def storeCommit (s : State) : State :=
  match s.lay.store with
  | none => s
  | some (a, v) =>
    { s with mem := { s.mem with
                strand := sput zero s.mem.strand a v,
                ecc := s.mem.ecc.filter (fun e => !(e.ram == .strand && e.addr == a)) },
             lay := { s.lay with store := none } }

/-- Slots per frame at a rate code (Table 1.1). -/
def budgetOf (rate : BitVec 2) : Nat := if rate = 0 then 8192 else if rate = 1 then 4096 else 2048

/-- Frames per light tick at a rate code (Table 1.1). -/
def lightDivOf (rate : BitVec 2) : Nat := if rate = 0 then 8 else if rate = 1 then 16 else 32

/-- B and K in force, the fence (R29), and the frame rate in kHz. -/
def budget (s : State) : Nat := budgetOf s.clock.rate
def lightDiv (s : State) : Nat := lightDivOf s.clock.rate
def fence (s : State) : Nat := budget s - getF s Reg.laySlackMin 12 0
def rateKhz (s : State) : Nat := if s.clock.rate = 0 then 24 else if s.clock.rate = 1 then 48 else 96

/-- Slots of the current frame not yet used (R21, R64). -/
def frameLeft (s : State) : Nat := s.clock.frameLen - s.clock.slot

/-- A ROM Lay has not issued END in this frame (R42, R70). -/
def romRuns (s : State) : Bool :=
  match s.lay.romEnd with
  | some e => decide (s.clock.slot ≤ e)
  | none => false

/-- Your Slack program stands where a ROM micro-routine may take over (R328): between two instructions, outside a delay slot
and a MODE shadow, with no multiply of its own in flight. -/
def slackBetween (s : State) : Bool :=
  s.lay.slack.branch.isNone && s.lay.slack.shadow.isNone && s.lay.flight.all (·.lay)

/-- What the last frame tick brings is not all carried out: entry to HOLDOVER, the light tick, the end of QUIESCE; or a
START pulse has ended the frame. -/
def tickDue (s : State) : Bool := s.clock.holdDue || s.clock.lightDue || s.clock.quietDue || s.clock.startDue

/-- Core clocks per millisecond (R17). -/
def clocksPerMs : Nat := 196608

/-- Frame a is at or past frame b (R61). -/
def atOrPast (a b : Word) : Bool := decide ((a - b).toNat < 2 ^ 31)

/-- The code of strap k (0 MS, 1 to 4 CFG0 to CFG3, 5 BIN0, 6 BIN1) as read at the last cold start. -/
def strapCode (s : State) (k : Nat) : Nat := (vget s.straps.pins k ⟨false, 0, 0, 0⟩).code.toNat

/-- MS as decided. -/
def msCode (s : State) : Nat := strapCode s 0

/-- The mode as SYS_MODE codes it (Table 4.1). -/
def modeNo : Mode → Nat
  | .off => 0 | .dormant => 1 | .standby => 2 | .raise => 3 | .run => 4 | .holdover => 5 | .limp => 6
  | .workshop => 7 | .quiesce => 8

/-- A mode change (R154): PREV keeps the mode left, and SYS_EVENTS.MODE is set (Table 19.5). -/
def enterMode (s : State) (m : Mode) : State :=
  pinSettle (sysEvent { s with power := { s.power with prev := s.power.mode, mode := m } } 1)

/-- RUN, HOLDOVER and QUIESCE, in which RWL fields ignore writes (R12). -/
def lockedMode (m : Mode) : Bool := m == .run || m == .holdover || m == .quiesce

/-- The modes in which your Slack program and the ports run in full (Table 4.1). -/
def slackMode (m : Mode) : Bool := m == .run || m == .holdover || m == .workshop || m == .quiesce

/-- A free value is read: what the spec leaves open is Config's, at the counter the step reads and advances. -/
def takeFree (s : State) : Nat × State := (s.free, { s with free := s.free + 1 })

end Sys2Proof.Machine
end

