-- ==== Sys2Proof/Machine/Slots.lean ====
section
/-! DEFINITION. What passes with core clocks: Cleat's log work, strand write-backs, multiplies, the bytes of the Whipping
units and the samples of the Tally monitors (R343, R269, R456, R844, R862). -/

namespace Sys2Proof.Machine

/-! ### Whipping units (R844 to R850) -/

/-- Bits [w − 1:0] reversed (R844). -/
def reflect (w v : Nat) : Nat := (List.range w).foldl (fun acc i => acc + (v / 2 ^ i % 2) * 2 ^ (w - 1 - i)) 0

/-- One bit of the register's step. -/
def crcStep (w poly crc : Nat) (b : Bool) : Nat :=
  let c := crc * 2 % 2 ^ w
  if xor (nbit crc (w - 1)) b then Nat.xor c (poly % 2 ^ w) else c

/-- One fed byte (R844). -/
def crcByte (w poly : Nat) (refin : Bool) (crc : Nat) (b : Byte) : Nat :=
  let v := if refin then reflect 8 b.toNat else b.toNat
  [7, 6, 5, 4, 3, 2, 1, 0].foldl (fun c i => crcStep w poly c (nbit v i)) crc

/-- RESULT from the register (R844, R845). -/
def crcResult (set : WhipSet) (crc : Nat) : Nat :=
  let w := set.width
  Nat.xor (if set.refout then reflect w crc else crc) (set.xorout.toNat % 2 ^ w)

def whipUnit (s : State) (u : Nat) : Whip := vget s.whip u Whip.init
def setWhip (s : State) (u : Nat) (w : Whip) : State := { s with whip := vset s.whip u w }

/-- The compare of a free unit (R849, R850). -/
def whipCompareNow (s : State) (u : Nat) : State :=
  let w := whipUnit s u
  let m := 2 ^ w.set.width
  let same := !w.poison && decide (w.result.toNat % m = (getReg s (Reg.whp u 8)).toNat % m)
  let s := setWhip s u { w with check := none, matched := same }
  let s := setB s (Reg.whp u 9) 0 true
  if same then s
  else
    let s := sysEvent (setB (countUp s (Reg.whp u 9) 23 16) (Reg.whp u 9) 2 true) 9
    let s :=
      if getB s (Reg.whp u 0) 4 then
        postEvent (logHw s .whipMismatch (BitVec.ofNat 32 u)) 19 (fun d => d ||| BitVec.ofNat 24 (2 ^ u))
      else s
    pinSettle s

/-- One core clock of unit u (R844): its oldest byte is processed, and a compare that waited for it takes place. -/
def whipClock (s : State) (u : Nat) : State :=
  let w := whipUnit s u
  match w.queue with
  | [] => s
  | b :: rest =>
    let crc := crcByte w.set.width w.set.poly.toNat w.set.refin w.crc.toNat b
    let s := setWhip s u { w with
      crc := BitVec.ofNat 32 crc, result := BitVec.ofNat 32 (crcResult w.set crc), queue := rest,
      check := w.check.map (· - 1) }
    if w.check == some 1 then whipCompareNow s u else s

/-! ### Tally monitors (R860 to R862) -/

/-- The bin of a sample (R860). -/
def binOf (v : Int) (shift : Nat) (base : Int) : Nat :=
  let i := v / 2 ^ shift - base
  if i < 0 then 0 else if i > 15 then 15 else i.toNat

/-- A sample is counted (R861, R862). -/
def monTake (m : Monitor) (x : Sample) : Monitor :=
  let i := binOf x.v.toInt x.shift x.base
  let full := (vget m.bins i 0).toNat == 65535
  let bins := if full then m.bins.map (fun b => BitVec.ofNat 16 (b.toNat / 2)) else m.bins
  { min := if x.v.toInt < m.min.toInt then x.v else m.min,
    max := if x.v.toInt > m.max.toInt then x.v else m.max,
    count := BitVec.ofNat 32 (satInc m.count.toNat (2 ^ 32 - 1)),
    halves := if full then BitVec.ofNat 8 (satInc m.halves.toNat 255) else m.halves,
    bins := vset bins i (BitVec.ofNat 16 ((vget bins i 0).toNat + 1)) }

def tallyTake (t : Tally) (x : Sample) : Tally :=
  { t with mons := vset t.mons x.unit (monTake (vget t.mons x.unit Monitor.init) x) }

/-- The first sample of each monitor in a list, and the others (R862). -/
def splitFirst : List Sample → List Nat → List Sample × List Sample
  | [], _ => ([], [])
  | x :: xs, seen =>
    if seen.contains x.unit then
      let (a, b) := splitFirst xs seen
      (a, x :: b)
    else
      let (a, b) := splitFirst xs (x.unit :: seen)
      (x :: a, b)

/-- One core clock of the monitors: each counts its oldest waiting sample (R862). -/
def tallyClock (t : Tally) : Tally :=
  let (now, later) := splitFirst t.due []
  now.foldl tallyTake { t with due := later }

/-- Every waiting sample is counted, in order. -/
def tallyAll (t : Tally) : Tally := t.due.foldl tallyTake { t with due := [] }

/-- A sample saturated to 24 bits (Table 18.6). -/
def satCell (v : Int) : Cell := if v > 0x7FFFFF then 0x7FFFFF else if v < -0x800000 then 0x800000 else toBits 24 v

/-- A quantity gives a sample to every monitor armed for it (R859, R867, R868): all tells that ARG 0 takes it too. -/
def tallySample (s : State) (qty arg : Nat) (all : Bool) (v : Int) : State :=
  let units := (List.range 8).filter (fun n =>
    let w := getReg s (Reg.mon n 0)
    bit w 31 && fld w 29 26 == qty && (fld w 7 0 == arg || (all && fld w 7 0 == 0)))
  let xs := units.map (fun n =>
    let w := getReg s (Reg.mon n 0)
    (⟨n, satCell v, fld w 25 21, signed 13 (fld w 20 8)⟩ : Sample))
  { s with tally := { s.tally with due := s.tally.due ++ xs } }

/-! ### Clocks -/

/-- The memory number of a RAM_ECC detail word (Table 9.3). -/
def ramNo : RamId → Nat
  | .prog0 => 0 | .prog1 => 0 | .table0 => 1 | .table1 => 1 | .deck => 2 | .line => 3 | .strand => 4

/-- The active copies (R497), which the back-fill reads (R498). -/
def tableRam (s : State) : RamId := if s.splice.tableSel then .table1 else .table0
def progRam (s : State) : RamId := if s.splice.progSel then .prog1 else .prog0

/-- The core clock of the back-fill that copies a word. -/
def backfillAt (e : EccError) : Nat := Config.backfillClock e.addr % 8192

/-- The error is in a word that the back-fill copies. -/
def backfillReads (s : State) (e : EccError) : Bool := e.ram == tableRam s || e.ram == progRam s

/-- The back-fill copies a word with an error (R498, Table 6.2): an uncorrectable one is logged, a single one counted. -/
def backfillFound (s : State) (e : EccError) : State :=
  if e.double then
    logHw (setB s Reg.mapEccStatus (8 + ramNo e.ram) true) .ramEcc (BitVec.ofNat 32 (ramNo e.ram * 2 ^ 28 + e.addr))
  else
    let s := { s with mem := { s.mem with
      ecc := s.mem.ecc.map (fun x => if x.ram == e.ram && x.addr == e.addr then { x with found := true } else x) } }
    setB (countUp s Reg.mapEccStatus 31 24) Reg.mapEccStatus 0 true

/-- The errors that the back-fill meets in this core clock. -/
def backfillStep (s : State) : State :=
  if s.splice.state == .backfill then
    (s.mem.ecc.filter (fun e => backfillReads s e && decide (backfillAt e = s.clock.time - s.splice.since))).foldl
      backfillFound s
  else s

/-- The end of one core clock. -/
def passClock (s : State) : State :=
  let s := storeCommit (logStep s)
  let s := backfillStep ([0, 1, 2, 3].foldl whipClock s)
  { s with lay := flightPass s.lay 1, tally := tallyClock s.tally,
           clock := { s.clock with slot := s.clock.slot + 1, time := s.clock.time + 1 } }

def passClocks (s : State) : Nat → State
  | 0 => s
  | n + 1 => passClocks (passClock s) n

/-- The back-fill has still to meet an error. -/
def backfillMeets (s : State) : Bool := s.splice.state == .backfill && !s.mem.ecc.isEmpty

/-- n core clocks pass; after 24 of them no log entry, multiply or byte waits any more. -/
def passSlots (s : State) (n : Nat) : State :=
  let t := passClocks s (if backfillMeets s then n else min n 24)
  if n ≤ 24 || backfillMeets s then t
  else { t with tally := tallyAll t.tally,
                clock := { t.clock with slot := t.clock.slot + (n - 24), time := t.clock.time + (n - 24) } }

end Sys2Proof.Machine
end

