-- ==== Sys2Proof/Machine/Clk.lean ====
section
/-! DEFINITION. Reference sources, their choice and their monitor (05_clocks_references_wake.md, R215 to R240). -/

namespace Sys2Proof.Machine

/-- The source codes of CLK_SRC_ORDER in order, without none and without repeats (R220). DESIGN CHOICE: codes 0x2 and 0x3 both
name MCLK in Table 5.1, and an entry counts as a repeat only of its own code (log entry 84). -/
def srcOrder (s : State) : List Nat :=
  [getF s Reg.clkSrcOrder 3 0, getF s Reg.clkSrcOrder 7 4, getF s Reg.clkSrcOrder 11 8].foldl
    (fun l c => if c = 0 ∨ l.contains c = true then l else l ++ [c]) []

def qualified (s : State) (c : Nat) : Bool := s.clk.qual.getLsbD c

/-- The qualified entries, in order. -/
def candidates (s : State) : List Nat := (srcOrder s).filter (qualified s)

/-- The qualified entries in the order that begins after source c. -/
def candidatesAfter (s : State) (c : Nat) : List Nat :=
  let l := srcOrder s
  let after := (l.dropWhile (· != c)).drop 1
  (after ++ l.takeWhile (· != c)).filter (fun x => qualified s x && x != c)

/-- The next qualified entry after the primary, 0 without one (R222, R229). -/
def nextSecondary (s : State) : Nat :=
  let l := srcOrder s
  let after := if l.contains s.clk.primary then (l.dropWhile (· != s.clk.primary)).drop 1 else l
  (after.find? (qualified s)).getD 0

/-- A pair is formed: its windows count anew and its decision is NORMAL (R225). -/
def formPair (s : State) (second : Nat) : State :=
  { s with clk := { s.clk with secondary := second, windows := 0, decision := 0, driftRun := 0 } }

/-- The PLL multiplier of a source (Table 5.1). -/
def multOf (s : State) (c : Nat) : Nat := if c = 2 then 16 else if c = 4 then budget s else 8

/-- Source c is the primary; its multiplier is in use, and sources are measured against it anew (R239). -/
def setPrimary (s : State) (c : Nat) : State :=
  let s := { s with clk := { s.clk with primary := c, passes := Vector.replicate 5 0 } }
  formPair (setF s Reg.clkPllCfg 31 16 (multOf s c)) (nextSecondary s)

/-- A change of primary is counted (R240). -/
def noteSwitch (s : State) : State := raiseFlag (countUp s Reg.clkStatus 31 28) Reg.clkStatus 24 3

/-- RAISE step 3 (R222): the first qualified entry is the primary, and step 4 follows. -/
def chooseReference (s : State) : State :=
  match candidates s with
  | c :: _ => { setPrimary s c with power := { s.power with raise := .pll } }
  | [] => s

/-- A primary in use gives way (R234, R237): the PLL slews to source c, and nudging and alignment stop. -/
def changePrimary (s : State) (c : Nat) : State :=
  let s := setPrimary s c
  let s := { s with clk := { s.clk with
    locked := false, hold := false, slewing := true, aligning := false, follow := false, alignLeft := 0 } }
  noteSwitch s

/-- The primary is gone (R234, R235): the next qualified entry takes over, or the PLL holds. DESIGN CHOICE: the fall to no
primary, and the first choice of RAISE step 3, are no change of primary in the sense of R240 (log entry 86). -/
def replacePrimary (s : State) (gone : Nat) : State :=
  match candidatesAfter s gone with
  | c :: _ => changePrimary s c
  | [] => formPair { s with clk := { s.clk with
      primary := 0, locked := false, hold := true, slewing := false, aligning := false, follow := false,
      alignLeft := 0 } } 0

/-- The PLL runs. -/
def pllRuns (s : State) : Bool := s.clk.locked || s.clk.hold || s.clk.slewing

/-- A LOST decision (R226, R229, R230) with its cause code of Table 9.3. -/
def declareLost (s : State) (c cause : Nat) : State :=
  let s := { s with clk := { s.clk with qual := s.clk.qual &&& ~~~(BitVec.ofNat 5 (2 ^ c)) } }
  let s := raiseFlag s Reg.clkStatus 26 3
  let s := logHw s .clkLost (BitVec.ofNat 32 (((toBits 16 s.clk.avg).toNat) * 65536 + cause * 16 + c))
  let s :=
    if c = s.clk.primary then
      if pllRuns s then replacePrimary s c
      else
        let t := chooseReference { formPair { s with clk := { s.clk with primary := 0 } } 0 with
          power := { s.power with raise := .reference } }
        if t.clk.primary = 0 then t else noteSwitch t
    else if c = s.clk.secondary then formPair s (nextSecondary s)
    else s
  pinSettle s

/-- The modes in which references are watched (R241, R242). -/
def watchesReferences (m : Mode) : Bool :=
  match m with
  | .off | .dormant | .standby => false
  | .raise | .run | .holdover | .limp | .workshop | .quiesce => true

/-- REFERENCE_QUALIFIED (R217, R222, R229, R232, R235). DESIGN CHOICE: a source that qualifies again does not displace a
secondary that stands after it in the order (log entry 85). -/
def execReferenceQualified (code : BitVec 3) (s : State) : Host.Outcome State Fault Refusal :=
  let c := code.toNat
  if !watchesReferences s.power.mode || s.power.factory || c = 0 || decide (c > 4) then .next s
  else
    let s := { s with clk := { s.clk with
      qual := s.clk.qual ||| BitVec.ofNat 5 (2 ^ c), passes := vset s.clk.passes c 0 } }
    .next (
      if s.power.mode == .raise && s.power.raise == .reference then chooseReference s
      else if s.clk.primary = 0 then
        (if s.clk.hold && (srcOrder s).contains c then changePrimary s c else s)
      else if s.clk.secondary = 0 then
        (if nextSecondary s = 0 then s else formPair s (nextSecondary s))
      else s)

/-- SOURCE_LOST (R226): four missing edges, or the RC check when rc holds. -/
def execSourceLost (code : BitVec 3) (rc : Bool) (s : State) : Host.Outcome State Fault Refusal :=
  let c := code.toNat
  if !watchesReferences s.power.mode || !qualified s c then .next s
  else if (srcOrder s).contains c then .next (declareLost s c (b2n rc))
  else .next { s with clk := { s.clk with qual := s.clk.qual &&& ~~~(BitVec.ofNat 5 (2 ^ c)) } }

/-- A deviation as CLK_MON_DEV holds it (Table 5.8). -/
def satDev (v : Int) : Int := if v > 32767 then 32767 else if v < -32767 then -32767 else v

/-- The mean of the last eight deviations (R225); a fraction is rounded either way. -/
def meanDev (devs : List Int) : Int :=
  let sum := devs.foldl (· + ·) 0
  sum / 8 + (if sum % 8 ≠ 0 ∧ Config.monitorUp sum = true then 1 else 0)

/-- The next decision (Table 5.6), from the magnitude of AVG in 0.1 ppm. -/
def nextDecision (d avg : Nat) : Nat :=
  match d with
  | 0 => if avg > 20000 then 2 else if avg > 2500 then 1 else 0
  | 1 => if avg > 20000 then 2 else if avg < 2000 then 0 else 1
  | _ => if avg < 19500 then 1 else 2

/-- What DISAGREE declares LOST (R227), 0 for nothing. -/
def disagreeLoser (s : State) : Nat :=
  if s.clk.primary = 1 then s.clk.secondary
  else if s.clk.secondary = 1 then s.clk.primary
  else if getB s Reg.clkMonCfg 2 then 0
  else s.clk.primary

def disagree (s : State) (cause : Nat) : State :=
  if disagreeLoser s = 0 then s else declareLost s (disagreeLoser s) cause

/-- DRIFT is entered (Table 5.6). -/
def driftEntered (s : State) : State :=
  logHw (raiseFlag s Reg.clkStatus 25 3) .clkDrift
    (BitVec.ofNat 32 ((toBits 16 s.clk.avg).toNat * 65536 + s.clk.primary))

/-- A decision at a window end (R226 to R228). -/
def monitorDecide (s : State) : State :=
  let was := s.clk.decision
  let d := nextDecision was s.clk.avg.natAbs
  let s := { s with clk := { s.clk with decision := d, driftRun := if d = 1 then s.clk.driftRun + 1 else 0 } }
  if d = 2 then disagree s 2
  else if d = 1 then
    let s := if was = 1 then s else driftEntered s
    if getB s Reg.clkMonCfg 0 && decide (s.clk.driftRun ≥ getF s Reg.clkMonCfg 15 8) then disagree s 3 else s
  else s

/-- The windows that the sources earlier in the order than the primary have passed in a row (R239). -/
def countPasses (s : State) (others : List (Nat × Int)) : State :=
  let pass := fun (c : Nat) => ((srcOrder s).takeWhile (· != s.clk.primary)).contains c && qualified s c
    && others.any (fun e => e.1 == c && decide (e.2.natAbs ≤ 2500))
  { s with clk := { s.clk with passes := (List.range 5).foldl (fun v c =>
      vset v c (if pass c then satInc (vget v c 0) 255 else 0)) s.clk.passes } }

/-- MONITOR_WINDOW_END (R225): dev is the window's deviation in 0.1 ppm. -/
def execMonitorWindowEnd (dev : Int) (s0 : State) (others : List (Nat × Int) := []) : Host.Outcome State Fault Refusal :=
  let s := countPasses s0 others
  if !watchesReferences s.power.mode || s.clk.primary = 0 then .next s0
  else if s.clk.secondary = 0 then .next s
  else
    let devs := (dev :: s.clk.devs).take 8
    let s := { s with clk := { s.clk with
      devs := devs, windows := s.clk.windows + 1, last := satDev dev, avg := satDev (meanDev devs) } }
    .next (if s.clk.windows ≥ 8 then monitorDecide s else s)

/-- CLK_NUDGE.COUNT reads 0 while the tick follows or aligns (R67, R238). -/
def nudgeClear (s : State) : State := setF s Reg.clkNudge 15 0 0

/-- An offset from the frame tick to the FSYNC edge in the shorter direction (R237). -/
def shortWay (off : Int) (b : Nat) : Int :=
  let r := off % Int.ofNat b
  if 2 * r > Int.ofNat b then r - Int.ofNat b else r

/-- PLL_SLEW_LOCK (R234, R237): offset is how many core clocks the FSYNC edge follows the frame tick. -/
def execPllSlewLock (offset : Int) (s : State) : Host.Outcome State Fault Refusal :=
  if !s.clk.slewing then .next s
  else
    let s := { s with clk := { s.clk with slewing := false, locked := true } }
    .next (
      if s.clk.primary = 4 then
        nudgeClear { s with clk := { s.clk with aligning := true, alignLeft := shortWay offset (budget s) } }
      else s)

/-- REFERENCE_REVERT (R239): a recovered source that stands earlier in the order, and that has passed REVERT_WIN windows. -/
def execReferenceRevert (code : BitVec 3) (s : State) : Host.Outcome State Fault Refusal :=
  let c := code.toNat
  let earlier := ((srcOrder s).takeWhile (· != s.clk.primary)).contains c
  if watchesReferences s.power.mode && getB s Reg.clkMonCfg 1 && pllRuns s && s.clk.primary ≠ 0 && qualified s c
      && earlier && (srcOrder s).contains s.clk.primary && decide (vget s.clk.passes c 0 ≥ getF s Reg.clkMonCfg 23 16) then
    .next (changePrimary s c)
  else .next s

/-- A write of CLK_SRC_ORDER in RAISE (R221). -/
def orderWritten (s : State) : State :=
  if s.power.mode != .raise then s
  else
    match srcOrder s with
    | c :: _ =>
      if qualified s c && c != s.clk.primary then
        (if pllRuns s then changePrimary s c else if s.power.raise == .pll then noteSwitch (setPrimary s c)
         else chooseReference s)
      else if s.power.raise == .reference then chooseReference s
      else if s.clk.primary = 0 ∨ s.clk.secondary = nextSecondary s then s
      else formPair s (nextSecondary s)
    | [] => if s.clk.secondary = 0 then s else formPair s 0

/-- Frame alignment at a tick (R237): what the length of the frame changes by. -/
def alignStep (s : State) : Int × State :=
  if !s.clk.aligning then (0, s)
  else if s.clk.alignLeft.natAbs ≤ 1 then
    (0, nudgeClear { s with clk := { s.clk with aligning := false, follow := true, alignLeft := 0 } })
  else if s.clk.alignLeft > 0 then (1, { s with clk := { s.clk with alignLeft := s.clk.alignLeft - 1 } })
  else (-1, { s with clk := { s.clk with alignLeft := s.clk.alignLeft + 1 } })

/-- CLK_STATUS as it reads (Table 5.5); its W1C flags and SW_COUNT stand in the register file. -/
def clkStatusWord (s : State) : Word :=
  let present := b2n (qualified s 1) + 2 * b2n (qualified s 2 || qualified s 3) + 4 * b2n (qualified s 4)
  let dec := if s.clk.secondary = 0 && (s.clk.primary != 0 || pllRuns s) then 3 else s.clk.decision
  let live := present * 2 ^ 20 + dec * 2 ^ 16 + b2n s.clk.aligning * 4096 + b2n s.clk.follow * 2048
    + b2n s.clk.slewing * 1024 + b2n s.clk.hold * 512 + b2n s.clk.locked * 256 + s.clk.secondary * 16 + s.clk.primary
  putFld (getReg s Reg.clkStatus) 22 0 live

end Sys2Proof.Machine
end

