-- ==== Sys2Proof/Machine/Image.lean ====
section
/-! DEFINITION. The image bundle (11_image_bundle.md): its head, its checks in the order of Table 11.7, its payloads,
and the writes they make. A bundle is a list of bytes, first byte first. -/

namespace Sys2Proof.Machine

/-- Reason codes of SYS_REASON (R187, Table 4.11a). -/
inductive Reason where
  | none | powerOn | resetPin | cmdReset | imageCheck | imageBudget | imageAbsent | pllNoLock | noReference
  | strapAmbiguous | strapReserved | holdoverTimeout | ramBist | supplyLow | ropeNoImage | slackWatchdog | thermalShutdown
  deriving DecidableEq, Repr

def reasonNo : Reason → Nat
  | .none => 0x00 | .powerOn => 0x01 | .resetPin => 0x02 | .cmdReset => 0x03 | .imageCheck => 0x04
  | .imageBudget => 0x05 | .imageAbsent => 0x06 | .pllNoLock => 0x07 | .noReference => 0x08
  | .strapAmbiguous => 0x09 | .strapReserved => 0x0A | .holdoverTimeout => 0x0B | .ramBist => 0x0C
  | .supplyLow => 0x0D | .ropeNoImage => 0x0E | .slackWatchdog => 0x0F | .thermalShutdown => 0x10

def at8 (img : List Byte) (i : Nat) : Nat := (img.getD i 0).toNat
def at16 (img : List Byte) (i : Nat) : Nat := at8 img i + 256 * at8 img (i + 1)
def at24 (img : List Byte) (i : Nat) : Nat := at16 img i + 65536 * at8 img (i + 2)
def at32 (img : List Byte) (i : Nat) : Nat := at16 img i + 65536 * at16 img (i + 2)

/-! ### CRC-32 of IEEE 802.3 (R530) -/

def crcBits (c : Nat) : Nat → Nat
  | 0 => c
  | n + 1 => crcBits (if c % 2 = 1 then Nat.xor (c / 2) 0xEDB88320 else c / 2) n

def crc32From (c : Nat) : List Byte → Nat
  | [] => c
  | b :: bs => crc32From (crcBits (Nat.xor c b.toNat) 8) bs

def crc32 (bs : List Byte) : Nat := Nat.xor (crc32From 0xFFFFFFFF bs) 0xFFFFFFFF

/-! ### The head (R524 to R526) -/

def headLen : Nat := 0x240
def imgMagic (img : List Byte) : Nat := at32 img 0x00
def imgTotal (img : List Byte) : Nat := at32 img 0x08
def imgRate (img : List Byte) : Nat := at8 img 0x0C
def imgRoles (img : List Byte) : Nat := at8 img 0x0D
def imgLmax (img : List Byte) : Nat := at16 img 0x0E
def imgSlack (img : List Byte) : Nat := at16 img 0x10
def imgWalk (img : List Byte) : Nat := at16 img 0x12

/-- A section table entry (Table 11.2). -/
structure Sect where
  type : Nat
  off  : Nat
  len  : Nat
  deriving DecidableEq, Repr

def sect (img : List Byte) (i : Nat) : Sect :=
  ⟨at8 img (0x40 + 16 * i), at32 img (0x44 + 16 * i), at32 img (0x48 + 16 * i)⟩

/-- A used section entry meets Table 11.2, and its type is 0x01 to 0x0E (check 6). -/
def sectOk (img : List Byte) (i : Nat) : Bool :=
  let e := sect img i
  e.type == 0 ||
    (decide (e.type ≤ 0x0E) && at24 img (0x41 + 16 * i) == 0 && at32 img (0x4C + 16 * i) == 0
      && e.off % 4 == 0 && decide (e.off ≥ headLen) && e.len % 4 == 0 && decide (e.len ≥ 4)
      && decide (e.off + e.len ≤ imgTotal img))

def varValid (img : List Byte) (v : Nat) : Bool := nbit (at8 img (0x140 + 16 * v)) 0
def varMask (img : List Byte) (v : Nat) : Nat := at16 img (0x142 + 16 * v)
def varEntry (img : List Byte) (v : Nat) : Nat := at16 img (0x144 + 16 * v)
def varSlackEntry (img : List Byte) (v : Nat) : Nat := at16 img (0x146 + 16 * v)

/-- The variant that runs (R527): the number chosen, or 0 when its entry is not VALID. -/
def variantOf (img : List Byte) (want : Nat) : Nat := if varValid img want then want else 0

/-- The sections a variant names, in table order (R528). -/
def varSects (img : List Byte) (v : Nat) : List Sect :=
  ((List.range 16).filter (nbit (varMask img v))).map (sect img)

def countType (es : List Sect) (t : Nat) : Nat := es.countP (fun e => e.type == t)

/-- The limits of Table 11.4, and a MAPS section whenever there is a PINS section (R539). -/
def limitsOk (es : List Sect) : Bool :=
  decide (countType es 0x01 ≥ 1)
    && [0x06, 0x07, 0x08, 0x09, 0x0A, 0x0B, 0x0C, 0x0D, 0x0E].all (fun t => decide (countType es t ≤ 1))
    && (countType es 0x07 == 0 || countType es 0x06 == 1)

/-- The sections of one variant do not overlap (R532). -/
def disjointSects : List Sect → Bool
  | [] => true
  | e :: es => es.all (fun x => decide (e.off + e.len ≤ x.off) || decide (x.off + x.len ≤ e.off)) && disjointSects es

/-- What the loader needs to know of the device: role bit of ROLES (none under MS code 14), ROM version, variant wanted. -/
structure LoadCtx where
  roleBit : Option Nat
  romVersion : Nat
  variant : Nat
  deriving DecidableEq, Repr

def rateBudget (rate : Nat) : Nat := if rate = 0 then 8192 else if rate = 1 then 4096 else 2048

/-- The running role's ROLES bit is 0 (check 3). -/
def roleRefused (x : LoadCtx) (img : List Byte) : Bool :=
  match x.roleBit with
  | some b => !nbit (imgRoles img) b
  | none => false

/-- Checks 1 to 6 of Table 11.7 on a complete head. -/
def headCheck (x : LoadCtx) (img : List Byte) : Option Reason :=
  let v := variantOf img x.variant
  let es := varSects img v
  if imgMagic img ≠ 0x4C53494D then some .imageCheck
  else if crc32 (img.take 0x38 ++ List.replicate 4 0 ++ (img.drop 0x3C).take (headLen - 0x3C)) ≠ at32 img 0x38 then
    some .imageCheck
  else if at8 img 0x05 ≠ 1 ∨ imgTotal img % 4 ≠ 0 ∨ imgTotal img < 0x244 ∨ imgTotal img > 0x01000000
      ∨ imgRate img > 2 ∨ roleRefused x img = true ∨ at8 img 0x14 > x.romVersion then some .imageCheck
  else if imgLmax img < 1 ∨ imgSlack img < 128 ∨ imgSlack img > rateBudget (imgRate img) / 2 ∨ imgWalk img > 1024 then
    some .imageCheck
  else if imgLmax img + imgWalk img + imgSlack img > rateBudget (imgRate img) then some .imageBudget
  else if !(List.range 16).all (sectOk img) || !varValid img 0 || es.any (fun e => e.type == 0) || !limitsOk es
      || !disjointSects es || decide (varEntry img v > 0x1FFF) || decide (varSlackEntry img v > 0x1FFF) then
    some .imageCheck
  else none

/-! ### Payloads -/

/-- A write that a loaded payload makes to a memory (Table 11.5). -/
inductive Put where
  | prog (a : Nat) (w : Word)
  | table (a : Nat) (c : Cell)
  | deck (a : Nat) (c : Cell)
  | line (n w : Nat) (c : Cell)
  | strand (a : Nat) (c : Cell)
  deriving DecidableEq, Repr

/-- A block: first unit, unit count, offset of its first unit (R534). -/
structure Block where
  start : Nat
  count : Nat
  data  : Nat
  deriving DecidableEq, Repr

def up4 (n : Nat) : Nat := (n + 3) / 4 * 4

/-- Bytes off to off + k have arrived. -/
def arrived (img : List Byte) (off k : Nat) : Bool := decide (off + k ≤ img.length)

/-- The padding bytes from off up to fin that have arrived are 0. -/
def padOk (img : List Byte) (off fin : Nat) : Bool := (List.range (fin - off)).all (fun k => at8 img (off + k) == 0)

/-- The blocks of a payload from off to stop fill it exactly and stay in their range (R534, R535), as far as the bytes that
have arrived tell. -/
def blocksOk (img : List Byte) (unit top stop : Nat) : Nat → Nat → Bool
  | 0, _ => false
  | fuel + 1, off =>
    if off = stop then true
    else if off + 8 > stop then false
    else if !arrived img off 8 then true
    else
      let count := at32 img (off + 4)
      let fin := off + 8 + count * unit
      count != 0 && decide (at32 img off + count ≤ top) && decide (up4 fin ≤ stop) && padOk img fin (up4 fin)
        && blocksOk img unit top stop fuel (up4 fin)

/-- The blocks of a payload whose headers have arrived, up to the first that is not well formed. -/
def blocksSoFar (img : List Byte) (unit top stop : Nat) : Nat → Nat → List Block
  | 0, _ => []
  | fuel + 1, off =>
    if off + 8 > min stop img.length then []
    else
      let start := at32 img off
      let count := at32 img (off + 4)
      let fin := off + 8 + count * unit
      if count = 0 ∨ start + count > top ∨ up4 fin > stop then []
      else ⟨start, count, off + 8⟩ :: blocksSoFar img unit top stop fuel (up4 fin)

/-- The unit size and range of a block section (Table 11.5). -/
def blockUnit (t : Nat) : Option (Nat × Nat) :=
  match t with
  | 0x01 | 0x02 => some (4, 8192)
  | 0x03 => some (3, 8192)
  | 0x04 => some (3, 4096)
  | 0x05 => some (9, 256)
  | 0x06 => some (3, 131072)
  | _ => none

/-- Unit k of a block as memory writes, with the offset just past the unit. -/
def unitPuts (img : List Byte) (t : Nat) (b : Block) (k : Nat) : List (Nat × Put) :=
  let c24 := fun o => BitVec.ofNat 24 (at24 img o)
  match t with
  | 0x01 | 0x02 => let o := b.data + 4 * k
                   [(o + 4, .prog (b.start + k) (BitVec.ofNat 32 (at32 img o)))]
  | 0x03 => let o := b.data + 3 * k
            [(o + 3, .table (b.start + k) (c24 o))]
  | 0x04 => let o := b.data + 3 * k
            [(o + 3, .deck (b.start + k) (c24 o))]
  | 0x05 =>
    let o := b.data + 9 * k
    let n := b.start + k
    [(o + 9, .line n 0 (c24 o)), (o + 9, .line n 1 (c24 (o + 3))), (o + 9, .line n 2 (c24 (o + 6) &&& 0x0FFFFF))]
  | _ => let o := b.data + 3 * k
         [(o + 3, .strand (b.start + k) (c24 o))]

/-- Where a section's blocks begin: after the base word of a MAPS payload (R538). -/
def blocksFrom (e : Sect) : Nat := if e.type = 0x06 then e.off + 4 else e.off

/-- The memory writes of a block section, in byte order, each with the offset just past its bytes. -/
def sectPuts (img : List Byte) (e : Sect) : List (Nat × Put) :=
  match blockUnit e.type with
  | none => []
  | some (unit, top) =>
    (blocksSoFar img unit top (e.off + e.len) (e.len + 1) (blocksFrom e)).flatMap (fun b =>
      (List.range b.count).flatMap (unitPuts img e.type b))

/-- A register record (R540). -/
structure Rec where
  page : Nat
  idx  : Nat
  val  : Word
  deriving DecidableEq, Repr

/-- The record list at off (R540): its records. -/
def records (img : List Byte) (off : Nat) : List Rec :=
  (List.range (at32 img off)).map (fun k =>
    let o := off + 4 + 8 * k
    ⟨at8 img o, at8 img (o + 1), BitVec.ofNat 32 (at32 img (o + 4))⟩)

/-- The pages a section type may name, and whether it may name CLK_SRC_ORDER (R541, Table 11.4). -/
def recPages (t : Nat) : List Nat × Bool :=
  match t with
  | 0x08 => ([0x08, 0x09], false)
  | 0x0A => ([0x0E, 0x0F], true)
  | 0x0B => ([0x10, 0x11, 0x12], false)
  | 0x0C => ([0x0A, 0x0B], true)
  | _ => ([0x0D], false)

/-- The offset just past a record list (R540), once its count has arrived. -/
def recordsEnd (img : List Byte) (off : Nat) : Option Nat :=
  if arrived img off 4 then some (off + 4 + 8 * at32 img off) else none

/-- A record list of a section type is well formed and lies before stop (R540, R541), as far as the bytes that have arrived
tell; it fills the payload when full. -/
def recordsOk (img : List Byte) (t off stop : Nat) (full : Bool) : Bool :=
  decide (off + 4 ≤ stop) &&
    match recordsEnd img off with
    | none => true
    | some fin =>
      (if full then fin == stop else decide (fin ≤ stop)) && (List.range (at32 img off)).all (fun k =>
        let o := off + 4 + 8 * k
        let p := at8 img o
        let i := at8 img (o + 1)
        !arrived img o 4 || (at16 img (o + 2) == 0 && decide (1 ≤ i) && decide (i ≤ 63)
          && ((recPages t).1.contains p || ((recPages t).2 && p == 1 && i == 1))))

def noRepeats : List Nat → Bool
  | [] => true
  | x :: xs => !xs.contains x && noRepeats xs

/-- An SPLN payload meets R544, as far as the bytes that have arrived tell. -/
def splnOk (img : List Byte) (e : Sect) : Bool :=
  let n := at32 img e.off
  let here := (List.range n).filter (fun k => arrived img (e.off + 4 + 8 * k) 8)
  !arrived img e.off 4 || (decide (1 ≤ n) && decide (n ≤ 256) && e.len == 4 + 8 * n
    && here.all (fun k =>
      let o := e.off + 4 + 8 * k
      at16 img o != 0xFFFF && at16 img (o + 2) / 8192 % 4 == 0 && decide (at16 img (o + 4) ≤ 4096) && at16 img (o + 6) == 0)
    && noRepeats (here.map (fun k => at16 img (e.off + 4 + 8 * k))))

/-- A PINS payload meets R539, as far as the bytes that have arrived tell. -/
def pinsOk (img : List Byte) (e : Sect) : Bool :=
  let n := at32 img e.off
  !arrived img e.off 4
    || (decide (n ≤ 24) && e.len == 4 + 4 * n && (List.range n).all (fun k => decide (at32 img (e.off + 4 + 4 * k) < 4096)))

def pinPages (img : List Byte) (e : Sect) : List Nat :=
  (List.range (at32 img e.off)).map (fun k => at32 img (e.off + 4 + 4 * k))

/-- The steps of a TWBI payload reach an END step (R545), as far as the bytes that have arrived tell. -/
def twbiOk (img : List Byte) (stop : Nat) : Nat → Nat → Bool
  | 0, _ => false
  | fuel + 1, off =>
    if off + 4 > stop then false
    else if !arrived img off 4 then true
    else
      match at8 img off with
      | 0x00 => at24 img (off + 1) == 0
      | 0x01 =>
        let n := at8 img (off + 2)
        let fin := off + 4 + n
        decide (1 ≤ n) && decide (n ≤ 32) && decide (at8 img (off + 1) < 128) && at8 img (off + 3) == 0
          && decide (up4 fin ≤ stop) && padOk img fin (up4 fin) && twbiOk img stop fuel (up4 fin)
      | 0x02 => at8 img (off + 1) == 0 && decide (at16 img (off + 2) ≥ 1) && twbiOk img stop fuel (off + 4)
      | _ => false

/-- The LIN frame entries of HALP (R540; 15_halyard_port.md): 8 bytes each. -/
def halpEntries (img : List Byte) (off : Nat) : List (List Byte) :=
  (List.range (at32 img off)).map (fun k => (img.drop (off + 4 + 8 * k)).take 8)

/-- The parameter numbers of the variant's SPLN section: none until its bytes have arrived. -/
def splnIds (img : List Byte) (es : List Sect) : Option (List Nat) :=
  match es.find? (fun e => e.type == 0x09) with
  | none => some []
  | some e =>
    if e.off + e.len > img.length then none
    else if e.len ≠ 4 + 8 * at32 img e.off then some []
    else some ((List.range (at32 img e.off)).map (fun k => at16 img (e.off + 4 + 8 * k)))

/-- A LIN frame entry meets R741. -/
def halpEntryOk (ids : Option (List Nat)) (b : List Byte) : Bool :=
  let flags := at8 b 1
  let kind := at8 b 2
  let w := at8 b 4 % 4
  let param := kind == 1 || kind == 4
  decide (at8 b 0 ≤ 0x3B) && decide (1 ≤ kind) && decide (kind ≤ 6) && nbit flags 4 == decide (3 ≤ kind)
    && (!param || (decide (w ≠ 0) && !(w == 3 && !nbit (at8 b 4) 7) && decide (at8 b 3 + w ≤ flags % 16)
      && match ids with
        | some l => l.contains (at16 b 5)
        | none => true))

/-- The LIN frame entries of a HALP section from off to stop meet R741, as far as the bytes that have arrived tell. -/
def halpOk (ids : Option (List Nat)) (img : List Byte) (off stop : Nat) : Bool :=
  let here := (halpEntries img off).filter (fun b => decide (b.length = 8))
  decide (off + 4 ≤ stop) && (!arrived img off 4
    || (off + 4 + 8 * at32 img off == stop && decide (at32 img off ≤ 64) && noRepeats (here.map (fun b => at8 b 0))
      && here.all (halpEntryOk ids)))

/-- One loaded payload meets R534 to R545 (check 7), as far as the bytes that have arrived tell. -/
def payloadOk (ids : Option (List Nat)) (img : List Byte) (e : Sect) : Bool :=
  let stop := e.off + e.len
  match e.type with
  | 0x06 =>
    !arrived img e.off 4
      || (decide (at32 img e.off ≥ 2 ^ 31) && blocksOk img 3 131072 stop (e.len + 1) (e.off + 4))
  | 0x07 => pinsOk img e
  | 0x09 => splnOk img e
  | 0x0A =>
    decide (e.len ≥ 68) && (List.range 16).all (fun c => decide (at32 img (e.off + 4 * c) < 2 ^ 24))
      && recordsOk img e.type (e.off + 64) stop true
  | 0x0D => twbiOk img stop (e.len + 1) e.off
  | 0x0E =>
    recordsOk img e.type e.off stop false && match recordsEnd img e.off with
      | some o => halpOk ids img o stop
      | none => true
  | 0x08 | 0x0B | 0x0C => recordsOk img e.type e.off stop true
  | t =>
    match blockUnit t with
    | some (unit, top) => blocksOk img unit top stop (e.len + 1) e.off
    | none => false

/-- Types whose LENGTH counts toward the loader's 8 KiB buffer (check 9). -/
def bufferedType (t : Nat) : Bool := [0x07, 0x08, 0x09, 0x0A, 0x0B, 0x0C, 0x0E].contains t

def bufferLen (es : List Sect) : Nat := (es.filter (fun e => bufferedType e.type)).foldl (fun n e => n + e.len) 0

/-- What the checks say of the bytes received so far (R547, R558). -/
inductive Verdict where
  | more
  | refused (r : Reason)
  | accepted
  deriving DecidableEq, Repr

/-- Checks 1 to 9 of Table 11.7 on the bytes received so far, each as soon as its bytes have arrived. -/
def imageVerdict (x : LoadCtx) (img : List Byte) : Verdict :=
  let n := img.length
  if n ≥ 4 ∧ imgMagic img ≠ 0x4C53494D then .refused .imageCheck
  else if n < headLen then .more
  else
    match headCheck x img with
    | some r => .refused r
    | none =>
      let es := varSects img (variantOf img x.variant)
      if es.any (fun e => !payloadOk (splnIds img es) img e) then .refused .imageCheck
      else if n < imgTotal img then .more
      else if crc32 ((img.take (imgTotal img)).drop headLen) ≠ at32 img 0x3C then .refused .imageCheck
      else if bufferLen es > 8192 then .refused .imageCheck
      else .accepted

/-- Sections in increasing byte order. -/
def insertSect (e : Sect) : List Sect → List Sect
  | [] => [e]
  | x :: xs => if e.off ≤ x.off then e :: x :: xs else x :: insertSect e xs

def sortSects (es : List Sect) : List Sect := es.foldl (fun acc e => insertSect e acc) []

/-- The memory writes of the bytes from index lo up to hi, in byte order (R528, R533, R548). -/
def imagePuts (x : LoadCtx) (img : List Byte) (lo hi : Nat) : List Put :=
  let es := sortSects (varSects img (variantOf img x.variant))
  ((es.flatMap (sectPuts img)).filter (fun p => decide (lo < p.1) && decide (p.1 ≤ hi))).map (·.2)

/-- The first section of a type in a variant. -/
def findSect (img : List Byte) (v t : Nat) : Option Sect := (varSects img v).find? (fun e => e.type == t)

/-- A directory counts as blank unless magic, major version and CRC match (R552). -/
def dirOk (dir : List Byte) : Bool :=
  at32 dir 0 == 0x4C534452 && at8 dir 5 == 0x01 && crc32 (dir.take 0xFFC) == at32 dir 0xFFC

/-- A slot pointer is not empty (R553). -/
def slotOk (ptr size : Nat) : Bool :=
  ptr != 0 && ptr != 0xFFFFFFFF && ptr % 4096 == 0 && decide (ptr < size)

end Sys2Proof.Machine
end

