-- ==== Sys2Proof/Machine/Splice.lean ====
section
/-! DEFINITION. The splice unit (10_splices.md): staging, ownership, commits, bank exchange, back-fill, glides and
zero-crossing gating of gain words; and the Table RAM as the Lay and Slack read it. -/

namespace Sys2Proof.Machine

/-- The owner code of a source (R488). -/
def ownerOf : Source → SpliceOwner
  | .twb => .twb
  | .rope => .rope
  | .slack => .slack
  | .rom => .rom
  | .lay => .lay

def spliceOwnerNo : SpliceOwner → Nat
  | .none => 0 | .twb => 1 | .rope => 2 | .slack => 3 | .rom => 4 | .lay => 5

def spliceStateNo : SpliceState → Nat
  | .idle => 0 | .staging => 1 | .armed => 2 | .backfill => 3

/-! ### Banked stores (R476, R496, R497) -/

def activeTable (s : State) : List (Nat × Cell) := if s.splice.tableSel then s.mem.table1 else s.mem.table0
def shadowTable (s : State) : List (Nat × Cell) := if s.splice.tableSel then s.mem.table0 else s.mem.table1
def activeProg (s : State) : List (Nat × Word) := if s.splice.progSel then s.mem.prog1 else s.mem.prog0
def shadowProg (s : State) : List (Nat × Word) := if s.splice.progSel then s.mem.prog0 else s.mem.prog1
def activeGains (s : State) : Vector Cell 16 := if s.splice.gainSel then s.splice.gain1 else s.splice.gain0
def shadowGains (s : State) : Vector Cell 16 := if s.splice.gainSel then s.splice.gain0 else s.splice.gain1

def setShadowTable (s : State) (m : List (Nat × Cell)) : State :=
  { s with mem := if s.splice.tableSel then { s.mem with table0 := m } else { s.mem with table1 := m } }
def setShadowProg (s : State) (m : List (Nat × Word)) : State :=
  { s with mem := if s.splice.progSel then { s.mem with prog0 := m } else { s.mem with prog1 := m } }
def setShadowGains (s : State) (v : Vector Cell 16) : State :=
  { s with splice := if s.splice.gainSel then { s.splice with gain0 := v } else { s.splice with gain1 := v } }

def shadowTableRam (s : State) : RamId := if s.splice.tableSel then .table0 else .table1
def shadowProgRam (s : State) : RamId := if s.splice.progSel then .prog0 else .prog1

/-- A gliding cell's value at step k of G (R501), rounding half up. -/
def glideValue (g : GlideCell) (k len : Nat) : Cell :=
  toBits 24 (g.old.toInt + roundHalfUp ((g.new.toInt - g.old.toInt) * (k + 1)) len)

/-- Table cell n as the Lay and Slack read it: the glide in place of the active copy (R501). -/
def tableCell (s : State) (n : Nat) : Cell :=
  match s.splice.glide.find? (fun g => g.cell == n) with
  | some g => glideValue g s.splice.glideK s.splice.glideG
  | none => sget zero (activeTable s) n

/-! ### Staging -/

/-- A splice write is refused (R489): the flag is set and nothing else changes. -/
def spliceRefuse (s : State) (flag : Nat) : State := setB s Reg.splStatus flag true

/-- A staging or commit write by this source is taken in the unit's state (R487, R489). -/
def spliceTakes (s : State) (src : Source) : Bool :=
  match s.splice.state with
  | .idle => true
  | .staging => s.splice.owner == ownerOf src
  | _ => false

/-- The writing source owns the unit, which is STAGING (R487), and its silence begins anew (R491). -/
def spliceClaim (s : State) (src : Source) : State :=
  let fresh := s.splice.state == .idle
  { s with splice := { s.splice with
      state := .staging, owner := ownerOf src, since := s.clock.time,
      marks := if fresh then [] else s.splice.marks, progStaged := if fresh then false else s.splice.progStaged } }

/-- A write to a page 0x06 register by the owner in STAGING restarts the 100 ms of R491. -/
def spliceHeard (s : State) (src : Source) : State :=
  if s.splice.state == .staging && s.splice.owner == ownerOf src then
    { s with splice := { s.splice with since := s.clock.time } }
  else s

/-- Whether the back-fill has copied a word (R479, R498): one word per core clock; the order is open. -/
def backfilled (s : State) (index : Nat) : Bool :=
  decide (Config.backfillClock index % 8192 < s.clock.time - s.splice.since)

/-- The memory that holds what a shadow word shows: a word already copied is the active one, error included (R479, R483,
R498). -/
def stageRam (s : State) (space index : Nat) : Option RamId :=
  let done := s.splice.state == .backfill && backfilled s index
  match space with
  | 0 => some (if done then tableRam s else shadowTableRam s)
  | 1 => some (if done then progRam s else shadowProgRam s)
  | _ => none

/-- The shadow word at SPACE and INDEX (R479, R483). -/
def shadowWord (s : State) (space index : Nat) : Word :=
  let done := s.splice.state == .backfill && backfilled s index
  match space with
  | 0 => BitVec.ofNat 32 (sget zero (if done then activeTable s else shadowTable s) index).toNat
  | 1 => sget zero (if done then activeProg s else shadowProg s) index
  | 2 => BitVec.ofNat 32 (vget (if done then activeGains s else shadowGains s) index 0).toNat
  | _ => 0

def stageSpace (s : State) : Nat := getF s Reg.splStagePtr 31 30
def stageIndex (s : State) : Nat := getF s Reg.splStagePtr 12 0

/-- SPL_STAGE_PTR takes a value (R480, R487): a reserved SPACE keeps its field. True: the write was refused. -/
def stagePtrWrite (s : State) (src : Source) (v : Word) : State × Bool :=
  if spliceTakes s src then
    let s := spliceClaim s src
    let s := if fld v 31 30 = 3 then s else setF s Reg.splStagePtr 31 30 (fld v 31 30)
    (setF (setB s Reg.splStagePtr 29 (bit v 29)) Reg.splStagePtr 12 0 (fld v 12 0), false)
  else (spliceRefuse s 4, true)

/-- A staged Table cell takes the pointer's MARK; a 513th is left unmarked (R484). -/
def stageMark (s : State) (index : Nat) : State :=
  let others := s.splice.marks.filter (· != index)
  if getB s Reg.splStagePtr 29 then
    if others.length ≥ 512 then setB { s with splice := { s.splice with marks := others } } Reg.splStatus 9 true
    else { s with splice := { s.splice with marks := others ++ [index] } }
  else { s with splice := { s.splice with marks := others } }

def clearEcc (s : State) (r : RamId) (a : Nat) : State :=
  { s with mem := { s.mem with ecc := s.mem.ecc.filter (fun e => !(e.ram == r && e.addr == a)) } }

/-- A shadow word takes a value (R481). -/
def stageStore (s : State) (space index : Nat) (v : Word) : State :=
  match space with
  | 0 => stageMark (clearEcc (setShadowTable s (sput zero (shadowTable s) index (BitVec.ofNat 24 v.toNat)))
           (shadowTableRam s) index) index
  | 1 =>
    let s := clearEcc (setShadowProg s (sput zero (shadowProg s) index v)) (shadowProgRam s) index
    { s with splice := { s.splice with progStaged := true } }
  | _ => setShadowGains s (vset (shadowGains s) index (BitVec.ofNat 24 v.toNat &&& 0x80FFFF))

/-- SPL_STAGE_DATA takes a value (R481, R482, R485, R489). -/
def stageDataWrite (s : State) (src : Source) (v : Word) : State × Bool :=
  let space := stageSpace s
  let index := stageIndex s
  if spliceTakes s src && !(space == 2 && decide (index > 15)) then
    let s := stageStore (spliceClaim s src) space index v
    (setF s Reg.splStagePtr 12 0 ((index + 1) % 8192), false)
  else (spliceRefuse s 4, true)

/-! ### Commits -/

/-- The log entry of a late commit carries the writing source's context (R494). -/
def lateItem (s : State) (src : Source) (frame : Word) : LogItem :=
  let (ctx, pc) := match src with
    | .lay => (LogCtx.lay, s.lay.lay.pc)
    | .slack => (LogCtx.slack, s.lay.slack.pc)
    | .rom => (LogCtx.rom, 0)
    | _ => (LogCtx.none, 0)
  ⟨.spliceLate, ctx, false, false, false, s.clock.slot, pc, frameNo s, frame⟩

/-- SPL_COMMIT_FRAME takes a value (R493, R494). True: the write was refused. -/
def commitWrite (s : State) (src : Source) (frame : Word) : State × Bool :=
  if !spliceTakes s src then (spliceRefuse s 5, true)
  else
    let late := atOrPast (frameNo s) frame
    let asap := getB s Reg.splCtrl 0
    if late && !asap then
      (sysEvent (setB (logPush (spliceHeard s src) (lateItem s src frame)) Reg.splStatus 6 true) 2, true)
    else
      let s := spliceClaim s src
      let s := setReg { s with splice := { s.splice with
        state := .armed, armG := getF s Reg.splGlide 12 0, armNext := late } } Reg.splCommitFrame frame
      (if late then setB s Reg.splStatus 7 true else s, false)

/-- Staging is discarded and the back-fill begins (R490, R491, R498). -/
def spliceDiscard (s : State) : State :=
  { s with splice := { s.splice with
      state := .backfill, owner := .none, since := s.clock.time, marks := [], progStaged := false, armNext := false } }

/-- A write of 1 to SPL_CTRL.CANCEL (R489, R490); without an armed commit, SPL_COMMIT_FRAME shows the last to fire (R515). -/
def spliceCancel (s : State) (src : Source) : State × Bool :=
  if (s.splice.state == .staging || s.splice.state == .armed) && s.splice.owner == ownerOf src then
    let t := spliceDiscard s
    (if s.splice.state == .armed then setReg t Reg.splCommitFrame s.splice.fired else t, false)
  else (spliceRefuse s 5, true)

/-! ### Gain words -/

def gainMuted (g : Cell) : Bool := nbit g.toNat 23

/-- GAIN of a word, a muted word counting as 0 (R509). -/
def gainNum (g : Cell) : Int := if gainMuted g then 0 else Int.ofNat (g.toNat % 65536)

/-- The gain word applied in the current frame (R508, R509). -/
def gainApplied (active : Cell) : GainPhase → Cell
  | .steady => active
  | .wait old _ _ _ | .due old _ => old
  | .ramp old new i => toBits 24 (gainNum old + roundHalfUp ((gainNum new - gainNum old) * (i + 1)) 64)

/-- The active gain word of a slot-channel. -/
def activeGain (s : State) (ch : Nat) : Cell := vget (activeGains s) ch 0

/-- A channel whose active gain word changed waits, from the gain applied before the change (R506, R511). -/
def gainChange (s0 s : State) (limit ch : Nat) : GainPhase :=
  let was := activeGain s0 ch
  let now := activeGain s ch
  let phase := vget s.splice.gains ch .steady
  if was == now then phase else .wait (gainApplied was phase) now 0 limit

/-- Frames of the zero-crossing timeout (R509). -/
def zcFrames (s : State) : Nat := getF s Reg.splZcTimeout 6 0 * rateKhz s

/-- The slot-channel crosses zero with this sample (R507). -/
def crosses (x last : Cell) : Bool := x == 0 || x.msb != last.msb

/-- One frame of a gain channel at sample x (R508 to R510); true: a ramp has ended. -/
def gainStep (x last : Cell) : GainPhase → GainPhase × Bool
  | .steady => (.steady, false)
  | .wait old new n limit =>
    if n ≥ limit then (.ramp old new 0, false)
    else if crosses x last then (.steady, false)
    else (.wait old new (n + 1) limit, false)
  | .due old new => (.ramp old new 0, false)
  | .ramp old new i => if i + 1 ≥ 64 then (.steady, true) else (.ramp old new (i + 1), false)

/-- Every phase takes this frame's samples; true: a ramp has ended. -/
def phasesStep (s : State) (samples : List Cell) (v : Vector GainPhase 16) : Vector GainPhase 16 × Bool :=
  (List.range 16).foldl (fun (acc : Vector GainPhase 16 × Bool) ch =>
    let (p, e) := gainStep (samples.getD ch 0) (vget s.splice.lastSample ch 0) (vget acc.1 ch .steady)
    (vset acc.1 ch p, acc.2 || e)) (v, false)

/-- All slot-channels take this frame's samples, gain words and mutes alike (Table 1.3, order 4; R202). -/
def gainsTick (s : State) (samples : List Cell) : State :=
  let out := phasesStep s samples s.splice.gains
  let mutes := phasesStep s samples s.audio.mutes
  let s := { s with audio := { s.audio with mutes := mutes.1 }, splice := { s.splice with
    gains := out.1, lastSample := (List.range 16).foldl (fun v ch => vset v ch (samples.getD ch 0)) s.splice.lastSample } }
  if out.2 || mutes.2 then setB s Reg.splStatus 10 true else s

/-- The phase waits or ramps. -/
def gainBusy : GainPhase → Bool
  | .steady => false
  | _ => true

/-- A slot-channel waits or ramps, for its gain word or its mute (Table 10.5). -/
def channelBusy (s : State) (ch : Nat) : Bool :=
  gainBusy (vget s.splice.gains ch .steady) || gainBusy (vget s.audio.mutes ch .steady)

/-! ### Firing, gliding and back-fill -/

/-- The cells that glide after a commit (R501, R502, R504): s0 is the state before the tick, s after the exchange. -/
def glideCells (s0 s : State) : List GlideCell :=
  if s0.splice.armG < 2 then []
  else (s0.splice.marks.map (fun n => (⟨n, tableCell s0 n, sget zero (activeTable s) n⟩ : GlideCell))).filter
    (fun g => g.old != g.new)

/-- The channels whose active gain word differs between two states begin to wait (R506). -/
def gainsChange (s0 s : State) : State :=
  let limit := zcFrames s
  { s with splice := { s.splice with
      gains := (List.range 16).foldl (fun v ch => vset v ch (gainChange s0 s limit ch)) s.splice.gains } }

/-- An armed commit fires (R495, R496): banks exchange, glides and waits begin, BACKFILL begins. -/
def spliceFire (s0 : State) : State :=
  let s := { s0 with splice := { s0.splice with
    tableSel := !s0.splice.tableSel, gainSel := !s0.splice.gainSel,
    progSel := if s0.splice.progStaged then !s0.splice.progSel else s0.splice.progSel,
    fired := getReg s0 Reg.splCommitFrame } }
  let s := gainsChange s0 { s with splice := { s.splice with
    glide := glideCells s0 s, glideK := 0, glideG := s0.splice.armG } }
  sysEvent (setB (countUp (spliceDiscard s) Reg.splStatus 31 24) Reg.splStatus 3 true) 2

/-- A running glide moves one step (R503); at its last step its cells read their new values. -/
def glideStep (s : State) : State :=
  if s.splice.glide.isEmpty then s
  else if s.splice.glideK + 2 ≥ s.splice.glideG then
    { s with splice := { s.splice with glide := [], glideK := 0, glideG := 0 } }
  else { s with splice := { s.splice with glideK := s.splice.glideK + 1 } }

/-- The splice unit at a frame tick (Table 1.3, order 3). -/
def spliceTick (s : State) : State :=
  if s.splice.state == .armed && (s.splice.armNext || atOrPast (frameNo s) (getReg s Reg.splCommitFrame)) then
    spliceFire s
  else glideStep s

/-- The ECC side of the back-fill (R498, Table 6.2): the shadow copy's errors become the active copy's double ones; single
ones are corrected in the copy. -/
def backfillEcc (s : State) (act sha : RamId) : State :=
  let copied := (s.mem.ecc.filter (fun e => e.ram == act && e.double)).map (fun e => { e with ram := sha })
  { s with mem := { s.mem with ecc := s.mem.ecc.filter (fun e => e.ram != sha) ++ copied } }

/-- The errors that the back-fill has still to meet, each in a core clock of its own. -/
def backfillRest (s : State) : State :=
  (s.mem.ecc.filter (fun e => backfillReads s e && decide (backfillAt e ≥ s.clock.time - s.splice.since))).foldl
    (fun s e => logStep (backfillFound s e)) s

/-- The back-fill is complete (R486, R498): every shadow copy holds its active copy, and the unit is IDLE. -/
def backfillDone (s0 : State) : State :=
  let s := backfillRest s0
  let s := setShadowTable s (activeTable s)
  let s := setShadowProg s (activeProg s)
  let s := setShadowGains s (activeGains s)
  let s := backfillEcc s (tableRam s) (shadowTableRam s)
  let s := backfillEcc s (progRam s) (shadowProgRam s)
  { s with splice := { s.splice with state := .idle, owner := .none } }

/-! ### Commands of the splice family that are not register writes -/

/-- A wait that has lasted its frames is over (R509). -/
def phaseTimeout : GainPhase → GainPhase
  | .wait old new n limit => if n ≥ limit then .due old new else .wait old new n limit
  | p => p

/-- ZC_TIMEOUT (R509): a slot-channel that has not crossed zero within its frames ramps from the next frame on, its gain
word and its mute alike (R202). -/
def execZcTimeout (ch : Fin 16) (s : State) : Host.Outcome State Fault Refusal :=
  .next { s with
    splice := { s.splice with gains := vset s.splice.gains ch.val (phaseTimeout (vget s.splice.gains ch.val .steady)) },
    audio := { s.audio with mutes := vset s.audio.mutes ch.val (phaseTimeout (vget s.audio.mutes ch.val .steady)) } }

/-- BACKFILL_COMPLETE (R486). -/
def execBackfillComplete (s : State) : Host.Outcome State Fault Refusal :=
  if s.splice.state == .backfill then .next (backfillDone s) else .next s

/-- OWNERSHIP_LAPSE (R491). -/
def execOwnershipLapse (s : State) : Host.Outcome State Fault Refusal :=
  if s.splice.state == .staging then .next (setB (spliceDiscard s) Reg.splStatus 8 true) else .next s

end Sys2Proof.Machine
end

