-- ==== Sys2Proof/Machine/ExtMem.lean ====
section
/-! DEFINITION. What an access finds behind the X-port and in the port window: external bytes, refused and late reads,
reel pages, and port cells (12_xport_and_reels.md; Table 6.6; R776, R795). -/

namespace Sys2Proof.Machine

/-! ### External bytes -/

/-- The key of an external byte. -/
def extKey (dev addr : Nat) : Nat := dev * 2 ^ 32 + addr

def extByte (s : State) (dev addr : Nat) : Byte := sget (Config.extByte s.mem.epoch) s.mem.ext (extKey dev addr)

def extWrite (s : State) (dev addr : Nat) (b : Byte) : State :=
  { s with mem := { s.mem with ext := sput (Config.extByte s.mem.epoch) s.mem.ext (extKey dev addr) b } }

/-- A cell of an external page, placed as R294 states. -/
def extCell (s : State) (dev addr pack : Nat) : Cell :=
  BitVec.ofNat 24 (leNat ((List.range pack).map (fun k => extByte s dev (addr + k))) * 2 ^ (8 * (3 - pack)))

/-- The bytes of a cell written to an external page (R294). -/
def extStore (s : State) (dev addr pack : Nat) (v : Cell) : State :=
  (List.range pack).foldl (fun s k =>
    extWrite s dev (addr + k) (BitVec.ofNat 8 (v.toNat / 2 ^ (8 * (3 - pack + k))))) s

/-- A direct transaction may have changed a memory: nothing of it is known any more. -/
def extForget (s : State) : State := { s with mem := { s.mem with ext := [], epoch := s.mem.epoch + 1 } }

/-! ### Devices and profiles (Tables 12.2 to 12.4) -/

def devKind (s : State) (d : Nat) : Nat := getF s (Reg.xpDevSize d) 31 30
def devSize (s : State) (d : Nat) : Nat := 2 ^ getF s (Reg.xpDevSize d) 4 0
def readProf (s : State) (d : Nat) : Word := getReg s (Reg.xpPhase (getF s (Reg.xpDevSize d) 29 28))
def writeProf (s : State) (d : Nat) : Word := getReg s (Reg.xpPhase (getF s (Reg.xpDevSize d) 27 26))

/-- Address bytes of a profile (Table 12.3). -/
def addrBytes (p : Word) : Nat := if fld p 15 14 = 1 then 3 else if fld p 15 14 = 2 then 4 else 0

/-- The bytes that a profile reaches on a device (R575). -/
def devReach (s : State) (d : Nat) (p : Word) : Nat := min (devSize s d) (2 ^ (8 * addrBytes p))

/-- No transaction is made to a device: the X-port is absent (R80), its pins are still high impedance (R82), or the device's
KIND is absent (R575). -/
def devAbsent (s : State) (d : Nat) : Bool := s.xp.io == 0 || !s.power.xpValid || devKind s d == 0

/-- Bytes that no transaction reads (R575). -/
def extAbsent (s : State) (d addr len : Nat) (p : Word) : Bool := devAbsent s d || decide (addr + len > devReach s d p)

def devBusy (s : State) (d : Nat) : Bool := getB s Reg.xpStatus (8 + d)

/-- Why an instruction's read of an external memory is refused without use of the port (R575, R599). -/
def extRefusal (s : State) (d addr len : Nat) : Option FaultCode :=
  if extAbsent s d addr len (readProf s d) then some .mapInvalid
  else if devBusy s d then some .xpTimeout
  else none

/-- The detail word of a refused or late read (Table 9.3). -/
def extDetail (code : FaultCode) (d level va : Nat) : Nat :=
  match code with
  | .xpTimeout => d * 2 ^ 27 + va
  | _ => level * 2 ^ 24 + va

/-! ### Lay reads in time (R592) -/

/-- Lanes of a lane code, and cycles of a phase of some bits, rounded up. -/
def laneCount (c : Nat) : Nat := if c = 0 then 1 else if c = 1 then 4 else 8
def phaseCycles (bits lanes : Nat) (ddr : Bool) : Nat :=
  let per := laneCount lanes * (if ddr then 2 else 1)
  (bits + per - 1) / per

/-- XCK cycles of one transaction of n data bytes under a profile: command, address, dummy cycles, data, and one more
(R592; the burst of the worked example). -/
def transCycles (p : Word) (double : Bool) (n : Nat) : Nat :=
  let cmd := if fld p 23 22 = 0 then 8 else 16
  phaseCycles cmd (fld p 21 20) (bit p 19) + phaseCycles (8 * addrBytes p) (fld p 18 17) (bit p 16)
    + fld p 8 4 * (if double then 2 else 1) + phaseCycles (8 * n) (fld p 13 12) (bit p 11) + 1

/-- C of R592 for a device: 12 data bytes, and a transaction that is cut. -/
def readCycles (s : State) (d : Nat) : Nat :=
  getF s Reg.xpTiming 11 8 + 1 + transCycles (readProf s d) (bit (readProf s d) 10) 12

/-- DIV × C of a device, 0 while it is absent. -/
def readClocks (s : State) (d : Nat) : Nat := if devKind s d = 0 then 0 else getF s Reg.xpCfg 5 0 * readCycles s d

/-- FITn (R592). -/
def readFits (s : State) (d : Nat) : Bool := decide (0 < readClocks s d) && decide (readClocks s d ≤ 40)

/-- A write to a NOR flash is in progress, which no read cuts (R590). -/
def uncutWrite (s : State) : Bool :=
  s.xp.holder == some 8 && s.xp.direct && getB s Reg.xpDcmd 20 && devKind s (getF s Reg.xpDcmd 21 21) == 1

/-- The core clocks that a read of device d takes by itself, for lo to hi data bytes: how many of them a page read
transfers, and whether the memory doubles its latency, are open. -/
def readOwn (s : State) (d lo hi : Nat) : Nat × State :=
  let (k, t) := takeFree s
  let n := max lo (min hi (Config.readBytes k))
  (getF s Reg.xpCfg 5 0 * transCycles (readProf s d) (bit (readProf s d) 10 && Config.latencyDouble k) n, t)

/-- A transaction may be in progress when a read arrives: a lease is held, or a Slack read is under way. -/
def portBusy (s : State) : Bool := s.xp.holder.isSome || s.xp.slackReads.any (fun e => decide (s.clock.time < e.2.1))

/-- A memory may not answer: it is being reset, or has not answered since (R467, R468). -/
def memSilent (s : State) : Bool := s.xp.recovering || s.xp.blocked

/-- Whether a Lay read is late (R593), own being the core clocks it takes by itself: a read of more than 40 always is; one
that meets no other transaction, or that fits while no write goes uncut, is not; else the timing of that read tells. -/
def layLate (s : State) (d own : Nat) : Bool × State :=
  if own > 40 then (true, s)
  else if !memSilent s && (!portBusy s || (readFits s d && !uncutWrite s)) then (false, s)
  else
    let (k, t) := takeFree s
    (Config.readLate k, t)

/-- The core clocks of TIMEOUT (R594, Table 12.5). -/
def timeoutClocks (s : State) : Nat := getF s Reg.xpTiming 31 24 * 196608 / 1000

/-- A Slack read is requested at a model time (R304, R588, R594): it waits for a transaction boundary, and ends when its data
has arrived or after TIMEOUT, which is when a memory does not answer. What is under way already goes on. True: it is
abandoned. -/
def slackRead (s : State) (d addr lo hi now : Nat) (silent : Bool) : Bool × Nat × State :=
  match s.xp.slackReads.find? (fun e => e.1 == extKey d addr) with
  | some (_, fin, late) => (late, fin - now, s)
  | none =>
    let (own, t) := readOwn s d lo hi
    let (k, t) := takeFree t
    let wait := if portBusy s || memSilent s then Config.slackWait k else 0
    let late := silent || decide (own > timeoutClocks s)
    let c := wait + (if late then timeoutClocks s else own)
    (late, c, { t with xp := { t.xp with slackReads := t.xp.slackReads ++ [(extKey d addr, now + c, late)] } })

/-- The reads that the Slack instruction or pin walk made are over. -/
def slackReadsEnd (s : State) : State := { s with xp := { s.xp with slackReads := [] } }

/-! ### Reel pages (R608 to R612) -/

/-- Bits [hi:lo] of register k of channel ch. -/
def chF (s : State) (ch k hi lo : Nat) : Nat := getF s (Reg.rel ch k) hi lo
def chEn (s : State) (ch : Nat) : Bool := getB s (Reg.rel ch 0) 31
def chKind (s : State) (ch : Nat) : Nat := chF s ch 0 30 29
def chLen (s : State) (ch : Nat) : Nat := chF s ch 3 31 0
def chan (s : State) (ch : Nat) : Channel := vget s.reel ch Channel.init
def setChan (s : State) (ch : Nat) (c : Channel) : State := { s with reel := vset s.reel ch c }

/-- The window runs backward when the line's STEP is −1 (R610). -/
def lineBack (s : State) (ch : Nat) : Bool :=
  getB s (Reg.rel ch 0) 19 && cfld (sget zero s.mem.line (4 * chF s ch 0 18 11 + 1)) 21 20 == 2

/-- The page index at an offset from the position, if it is one (R610). -/
def reelPage (s : State) (ch : Nat) (off : Int) : Option Nat :=
  let c := chan s ch
  let p := Int.ofNat c.pos + (if lineBack s ch then -off else off)
  let len := chLen s ch
  if getB s (Reg.rel ch 0) 20 then (if len = 0 then none else some (p % Int.ofNat len).toNat)
  else if 0 ≤ p ∧ p < Int.ofNat len then some p.toNat else none

/-- The offsets of the window, nearest first, in the direction of the window (R610, R611). -/
def reelOffsets (s : State) (ch : Nat) : List Int :=
  let behind := Int.ofNat (chF s ch 0 10 8)
  let count := Int.ofNat (chF s ch 4 11 8)
  ([0, 1, -1, 2, -2, 3, -3, 4, -4, 5, -5, 6, -6, 7, -7] : List Int).filter
    (fun o => decide (-behind ≤ o) && decide (o ≤ count - 1 - behind))

/-- The pages of the window in the order in which they are filled. -/
def reelWindow (s : State) (ch : Nat) : List Nat := (reelOffsets s ch).filterMap (reelPage s ch)

/-- Pages outside the window are not ready any more, and a fill of one ends at its next burst boundary (R611). -/
def reelPrune (s : State) (ch : Nat) : State :=
  let w := reelWindow s ch
  let c := chan s ch
  let gone := match c.fill with
    | some p => !w.contains p
    | none => false
  setChan s ch { c with ready := c.ready.filter w.contains, leave := c.leave || gone }

/-- Ready pages from the position forward (Table 12.12). -/
def reelMargin (s : State) (ch : Nat) : Nat :=
  ((reelOffsets s ch).filter (fun o => decide (0 ≤ o) && match reelPage s ch o with
    | some p => (chan s ch).ready.contains p
    | none => false)).length

/-- The page index of a virtual address (R608). -/
def reelIndex (s : State) (ch va : Nat) : Option Nat :=
  let v := va / 4096
  let v0 := chF s ch 2 11 0
  if v0 ≤ v ∧ v - v0 < chLen s ch then some (v - v0) else none

/-- The Strand RAM cell that serves a virtual address of a reel, if its page is ready (R612, R621). -/
def reelCell (s : State) (ch va : Nat) : Option Nat :=
  match reelIndex s ch va with
  | none => none
  | some p =>
    let on := chEn s ch || (chan s ch).st == .faulted
    let count := chF s ch 4 11 8
    if on && (chan s ch).ready.contains p && decide (0 < count) then
      some ((chF s ch 4 4 0 + p % count) * 4096 % 131072 + va % 4096)
    else none

/-- A Lay read through a channel with LINE_EN at 0 sets its position (R609). -/
def reelTouch (s : State) (ch va : Nat) : State :=
  if getB s (Reg.rel ch 0) 19 || !chEn s ch then s
  else
    match reelIndex s ch va with
    | some p => reelPrune (setChan s ch { chan s ch with pos := p }) ch
    | none => s

/-! ### The port window (Table 6.6) -/

/-- Offsets that hold a port cell: LGT0 to LGT23, AUDA, AUDC, AUDB, SENSE and ASR. -/
def portCell (off : Nat) : Bool :=
  decide (off < 0x18) || (decide (0x100 ≤ off) && decide (off < 0x118)) || (decide (0x120 ≤ off) && decide (off < 0x128))
    || (decide (0x130 ≤ off) && decide (off < 0x138))

/-- A program writes a port cell: input and converter cells ignore it (R776, R795). -/
def writePort (s : State) (off : Nat) (v : Cell) : State :=
  if off < 0x18 then { s with mem := { s.mem with port := sput zero s.mem.port off v } }
  else if 0x100 ≤ off ∧ off < 0x110 then
    { s with mem := { s.mem with port := sput zero s.mem.port off v },
             audio := { s.audio with written := s.audio.written ||| BitVec.ofNat 16 (2 ^ (off - 0x100)) } }
  else s

/-- A port cell set by the hardware. -/
def setPort (s : State) (off : Nat) (v : Cell) : State := { s with mem := { s.mem with port := sput zero s.mem.port off v } }

end Sys2Proof.Machine
end

