-- ==== Sys2Proof/Machine/Map.lean ====
section
/-! DEFINITION. Memories with error correction, lines and taps, and the strand map: walk, cache, pins
(06_memory_and_strand_map.md). -/

namespace Sys2Proof.Machine

/-- Why an access ends its instruction: a fault with its detail word (R436), and the virtual address when it
annulled a strand access (R319); or a walk still stalling at the fence (R44, R208). -/
inductive Stop where
  | fault (code : FaultCode) (detail : Word) (va : Option Nat)
  | abandon
  deriving DecidableEq, Repr

/-- What an access works on: the state, and the slots stalled so far. -/
structure Work where
  st    : State
  stall : Nat
  /-- External pages already read by this instruction (R305): device and page. -/
  pages : List (Nat × Nat) := []
  /-- The level that the last translation reached (Table 9.3): 0 without a walk. -/
  level : Nat := 0
  /-- The memory does not answer the reads of this access. -/
  silent : Bool := false

/-- Accesses of one instruction: they may stop, and what they changed and stalled before stopping stays (R432). -/
abbrev Run := ExceptT Stop (StateM Work)

def stopWith {α : Type} (code : FaultCode) (detail : Nat) (va : Option Nat := none) : Run α :=
  throw (.fault code (BitVec.ofNat 32 detail) va)

def readSt : Run State := do return (← get).st

def modifySt (f : State → State) : Run Unit := modify (fun w => { w with st := f w.st })

/-- The store of a RAM read as cells; program words keep their 32 bits elsewhere. -/
def ramCells (m : Mem) : RamId → List (Nat × Cell)
  | .table0 => m.table0
  | .table1 => m.table1
  | .deck => m.deck
  | .line => m.line
  | .strand => m.strand
  | .prog0 => []
  | .prog1 => []

def eccAt (m : Mem) (r : RamId) (a : Nat) : Option EccError := m.ecc.find? (fun e => e.ram == r && e.addr == a)

/-- A read found a single-bit error (R271): it is counted, and the corrected word waits for its write-back. -/
def eccCount (s : State) (r : RamId) (a : Nat) : State :=
  let s := { s with mem := { s.mem with
    ecc := s.mem.ecc.map (fun e => if e.ram == r && e.addr == a then { e with found := true } else e) } }
  setB (countUp s Reg.mapEccStatus 31 24) Reg.mapEccStatus 0 true

/-- A read found a double-bit error (Table 6.2): the memory's UNC_RAM bit is set. -/
def eccFlag (s : State) (r : RamId) : State := setB s Reg.mapEccStatus (8 + ramNo r) true

/-- The check of one word read by an instruction (R271, R272): true when it is uncorrectable. -/
def eccRead (s : State) (r : RamId) (a : Nat) : Bool × State :=
  match eccAt s.mem r a with
  | none => (false, s)
  | some e => if e.double then (true, eccFlag s r) else (false, eccCount s r a)

/-- A word read by an instruction is checked; an uncorrectable one ends it with RAM_ECC (Table 6.2). -/
def checkEcc (r : RamId) (a : Nat) : Run Unit := do
  let s ← readSt
  let (bad, s') := eccRead s r a
  let hit := (eccAt s.mem r a).isSome && !bad
  modifySt (fun _ => if hit then { s' with lay := { s'.lay with corrNow := true } } else s')
  if bad then stopWith .ramEcc (ramNo r * 2 ^ 28 + a)

/-- A write makes fresh check bits: the word's error is gone (06_memory_and_strand_map.md, "Error correction"). -/
def eccClear (m : Mem) (r : RamId) (a : Nat) : Mem :=
  { m with ecc := m.ecc.filter (fun e => !(e.ram == r && e.addr == a)) }

/-- Strand RAM as the next read sees it: a store of the slot before is forwarded (R269). -/
def strandCell (s : State) (a : Nat) : Cell :=
  match s.lay.store with
  | some (b, v) => if a = b then v else sget zero s.mem.strand a
  | none => sget zero s.mem.strand a

/-- Cell w of line descriptor n (R274, R283). -/
def lineCell (s : State) (n w : Nat) : Cell := sget zero s.mem.line (4 * n + w)

def lineLen (s : State) (n : Nat) : Nat := cfld (lineCell s n 1) 19 0 + 1

/-- Tap d of line n (R277). -/
def tapAddr (s : State) (n d : Nat) : Nat :=
  let len := lineLen s n
  let head := cfld (lineCell s n 2) 19 0
  ((lineCell s n 0).toNat + ((Int.ofNat head - Int.ofNat d) % Int.ofNat len).toNat) % 2 ^ 24

/-! ### Table locations and the walk -/

/-- Where a map table lies (R295). -/
inductive TableLoc where
  | strand (cell : Nat)
  | ext (dev byte : Nat)
  | device
  | invalid
  deriving DecidableEq, Repr

def tableLoc (ext : Bool) (dev a : Nat) : TableLoc :=
  if ext then .ext dev (a * 512)
  else if a < 0x020000 then .strand (a - a % 128)
  else if a ≥ 0xFE0000 then .device
  else .invalid

def readCost (ext : Bool) : Nat := if ext then 40 else 4

/-- The first slot that a context may not issue in (R29, R27, R65). -/
def slotLimit (s : State) (lay : Bool) : Nat := if lay then fence s else s.clock.frameLen

/-- The slots that a context has left, for a read that stalls it (R22, R44). -/
def stallRoom (s : State) (lay : Bool) (stall : Nat) : Nat := slotLimit s lay - (s.clock.slot + stall)

/-- The walk allowance pays for the Lay's stall slots (R33). -/
def chargeWalk (s : State) (c : Nat) : State :=
  { s with map := { s.map with allowance := s.map.allowance - c, charged := s.map.charged + c } }

/-- A context stalls for c slots (R32, R33): the Lay is charged, Slack is not (R35). A read still stalling when the context's
slots end is abandoned: the Lay's at the fence, its stalled slots spent and charged (R44, R208); Slack's at the frame
tick. -/
def stallFor (lay : Bool) (c : Nat) : Run Unit := do
  let w ← get
  let room := stallRoom w.st lay w.stall
  let n := min c room
  set { w with st := if lay then chargeWalk w.st n else w.st, stall := w.stall + n }
  if room < c then throw Stop.abandon

/-- A Lay read of an external memory stalls it for 40 slots (R299, R305); true: it is late (R593). -/
def layExtRead (d lo hi : Nat) : Run Bool := do
  stallFor true 40
  let w ← get
  let (own, s) := readOwn w.st d lo hi
  let (late, s) := layLate s d own
  set { w with st := s }
  return late || w.silent

/-- A Slack read of an external memory stalls it as long as the read takes (R304); true: it is abandoned, which XP_STATUS
keeps (R594). -/
def slackExtRead (d addr lo hi : Nat) : Run Bool := do
  let w ← get
  let (late, c, s) := slackRead w.st d addr lo hi (w.st.clock.time + w.stall) w.silent
  set { w with st := s }
  stallFor false c
  if late then modifySt (fun s => setB s Reg.xpStatus 10 true)
  return late

/-- A read of lo to hi bytes of an external memory by an instruction or a walk: a late one ends it with XP_TIMEOUT (R303,
R594). -/
def extRead (lay : Bool) (d addr lo hi va : Nat) : Run Unit := do
  let late ← if lay then layExtRead d lo hi else slackExtRead d addr lo hi
  if late then stopWith .xpTimeout (extDetail .xpTimeout d 0 va) (some va)

/-- Detail word of MAP_INVALID, WALK_DEVICE and WALK_ECC (Table 9.3). -/
def walkDetail (level va : Nat) : Nat := level * 2 ^ 24 + va

/-- A cell of Strand RAM is read by a walk: a store that waits is written while the walk stalls (R269). -/
def strandEcc (s : State) (a : Nat) : Bool × State :=
  if s.lay.store.map (·.1) = some a then (false, s) else eccRead s .strand a

/-- read_entry of R299: words 0 and 1 of entry i; level is the level reached before the read. -/
def readEntry (lay : Bool) (loc : TableLoc) (i level va : Nat) : Run (Nat × Nat) := do
  match loc with
  | .device => stopWith .walkDevice (walkDetail level va) (some va)
  | .invalid => stopWith .mapInvalid (walkDetail level va) (some va)
  | .strand c =>
    stallFor lay 4
    let s ← readSt
    let (bad0, s) := strandEcc s (c + 2 * i)
    let (bad1, s) := strandEcc s (c + 2 * i + 1)
    modifySt (fun _ => s)
    if bad0 || bad1 then stopWith .walkEcc (walkDetail (level + 1) va) (some va)
    return ((strandCell s (c + 2 * i)).toNat, (strandCell s (c + 2 * i + 1)).toNat)
  | .ext dev b =>
    let s ← readSt
    match extRefusal s dev (b + 8 * i) 8 with
    | some code => stopWith code (extDetail code dev (level % 4) va) (some va)
    | none =>
      extRead lay dev (b + 8 * i) 8 8 va
      let s ← readSt
      let at' := fun k => (extByte s dev (b + 8 * i + k)).toNat
      return (at' 0 + 256 * at' 1 + 65536 * at' 2, at' 4 + 256 * at' 5 + 65536 * at' 6)

/-- The page an entry of type 1, 2 or 3 gives (Tables 6.7, 6.8); i2 is the page of a level-1 span. -/
def entryPage (w0 w1 i2 : Nat) : Option Page :=
  match w0 / 2 ^ 21 % 8 with
  | 1 => some (.frame (nbit w0 20) (w0 % 32))
  | 2 =>
    let pack := w0 / 2 ^ 17 % 4
    if pack = 0 then none else some (.ext (nbit w0 20) (b2n (nbit w0 19)) pack (w1 + i2 * pack))
  | 3 => some (.reel (w0 % 8))
  | _ => none

/-- The walk of R299 to the page's translation; it is not yet in the cache. -/
def walkPage (lay : Bool) (va : Nat) : Run Page := do
  let s ← readSt
  let base := getReg s Reg.mapL1Base
  let l1x := bit base 30
  let l2x := bit base 28
  let i1 := va / 262144
  let i2 := va / 4096 % 64
  if lay && decide (readCost l1x + readCost l2x > s.map.allowance) then
    stopWith .mapMissBudget va (some va)
  if lay then modifySt (fun s => { s with map := { s.map with walks := satInc s.map.walks 255 } })
  let (a0, a1) ← readEntry lay (tableLoc l1x (b2n (bit base 29)) (fld base 23 0)) i1 0 va
  match a0 / 2 ^ 21 % 8 with
  | 2 | 3 =>
    modify (fun w => { w with level := 1 })
    match entryPage a0 a1 i2 with
    | some p => return p
    | none => stopWith .mapInvalid (walkDetail 1 va) (some va)
  | 4 =>
    let (b0, b1) ← readEntry lay (tableLoc l2x (b2n (nbit a0 19)) a1) i2 1 va
    modify (fun w => { w with level := 2 })
    match entryPage b0 b1 0 with
    | some p => return p
    | none => stopWith .mapInvalid (walkDetail 2 va) (some va)
  | _ => stopWith .mapInvalid (walkDetail 1 va) (some va)

/-! ### The map cache -/

def cacheFind (m : MapUnit) (vpn : Nat) : Option Nat :=
  (List.range 32).find? (fun i => match vget m.cache i none with
    | some e => e.vpn == vpn
    | none => false)

/-- The entry a fill takes (R309): the first invalid one, else the least recently used unpinned one. -/
def cacheVictim (m : MapUnit) : Nat :=
  match (List.range 32).find? (fun i => (vget m.cache i none).isNone) with
  | some i => i
  | none =>
    let score := fun i => match vget m.cache i none with
      | some e => if e.pinned then m.nextStamp + 1 else e.stamp
      | none => 0
    (List.range 32).foldl (fun best i => if score i < score best then i else best) 0

def cacheFill (m : MapUnit) (vpn : Nat) (p : Page) (pinned : Bool) : MapUnit :=
  { m with cache := vset m.cache (cacheVictim m) (some ⟨vpn, p, pinned, m.nextStamp⟩), nextStamp := m.nextStamp + 1 }

def cacheTouch (m : MapUnit) (i : Nat) : MapUnit :=
  match vget m.cache i none with
  | some e => { m with cache := vset m.cache i (some { e with stamp := m.nextStamp }), nextStamp := m.nextStamp + 1 }
  | none => m

def pinnedCount (m : MapUnit) : Nat := m.cache.toList.countP (fun e => match e with
  | some e => e.pinned
  | none => false)

def pinMask (m : MapUnit) : Nat :=
  (List.range 32).foldl (fun acc i => match vget m.cache i none with
    | some e => if e.pinned then acc + 2 ^ i else acc
    | none => acc) 0

/-- The cache emptied of every entry (R297, R313). -/
def cacheEmpty (m : MapUnit) : MapUnit := { m with cache := Vector.replicate 32 none }

/-- OP 0b01: every unpinned entry is invalid (R312). -/
def cacheDropUnpinned (m : MapUnit) : MapUnit :=
  { m with cache := m.cache.map (fun e => match e with
      | some e => if e.pinned then some e else none
      | none => none) }

/-- OP 0b10: the entry for a page is invalid, pinned or not (R312). -/
def cacheDropPage (m : MapUnit) (vpn : Nat) : MapUnit :=
  { m with cache := m.cache.map (fun e => match e with
      | some e => if e.vpn = vpn then none else some e
      | none => none) }

/-- The translation of a strand address below 0xFE_0000 (R298, R299, R308). -/
def translate (lay : Bool) (va : Nat) : Run Page := do
  modify (fun w => { w with level := 0 })
  let s ← readSt
  if !getB s Reg.mapL1Base 31 then
    if va < 0x020000 then return .frame true (va / 4096)
    else stopWith .mapInvalid (walkDetail 0 va) (some va)
  else
    match cacheFind s.map (va / 4096) with
    | some i =>
      modifySt (fun s => { s with map := cacheTouch s.map i })
      match vget s.map.cache i none with
      | some e => return e.page
      | none => stopWith .mapInvalid (walkDetail 0 va) (some va)
    | none =>
      let p ← walkPage lay va
      modifySt (fun s => { s with map := cacheFill s.map (va / 4096) p false })
      return p

/-- A map fault is recorded (R319, R320): MAP_FAULT_ADDR, and FAULTS of the frame for the Lay. -/
def noteMapFault (s : State) (lay : Bool) (code : FaultCode) (va : Nat) : State :=
  let s := setReg s Reg.mapFaultAddr (BitVec.ofNat 32 (faultNo code * 2 ^ 24 + va))
  if lay then { s with map := { s.map with faults := satInc s.map.faults 255 } } else s

/-! ### Pins -/

/-- A pin operation ends without pinning (R316). -/
def pinFail (s : State) : State :=
  let s := { s with map := { s.map with pin := none } }
  setB (setF s Reg.mapCacheCtrl 31 30 0) Reg.mapCacheCtrl 28 true

/-- The reads of a pin walk are not those of the Slack instruction (R315). -/
def pinReads (s t : State) : State := { t with xp := { t.xp with slackReads := s.xp.slackReads } }

/-- A pin operation walks and pins its page (R315, R316); the walk is Slack's, and the frame tick that cuts it leaves the
operation waiting. -/
def pinRun (s : State) (vpn : Nat) : State :=
  let va := vpn * 4096
  if !getB s Reg.mapL1Base 31 || decide (va ≥ 0xFE0000) then pinFail s
  else
    match cacheFind s.map vpn with
    | some i =>
      match vget s.map.cache i none with
      | some e =>
        if pinnedCount s.map ≥ 24 then pinFail s
        else { s with map := { s.map with cache := vset s.map.cache i (some { e with pinned := true }), pin := none } }
      | none => s
    | none =>
      if pinnedCount s.map ≥ 24 then pinFail s
      else
        match (walkPage false va).run.run { st := s, stall := 0 } with
        | (.ok p, w) =>
          let t := passSlots (pinReads s w.st) w.stall
          { t with map := { cacheFill t.map vpn p true with pin := none } }
        | (.error (.fault code d _), w) => pinFail (logHw (passSlots (pinReads s w.st) w.stall) code d)
        | (.error .abandon, w) => passSlots (pinReads s w.st) w.stall

/-- A pin operation needs a walk (R315, R316). -/
def pinWalks (s : State) (vpn : Nat) : Bool :=
  getB s Reg.mapL1Base 31 && decide (vpn * 4096 < 0xFE0000) && (cacheFind s.map vpn).isNone && decide (pinnedCount s.map < 24)

/-- A waiting pin operation goes on (R315, R897): with a MAP_L1_BASE write pending it waits for that frame tick, and its
walk waits for a Slack slot. -/
def pinTry (s : State) : State :=
  match s.map.pin with
  | some vpn =>
    if s.tickPend.any (fun e => e.1 == Reg.mapL1Base) || (s.lay.inLay && pinWalks s vpn) then s else pinRun s vpn
  | none => s

/-- A pin operation is written (R314). -/
def pinStart (s : State) (vpn : Nat) : State := pinTry { s with map := { s.map with pin := some vpn } }

end Sys2Proof.Machine
end

