-- ==== Sys2Proof/Machine/Xport.lean ====
section
/-! DEFINITION. The X-port and the Reel engine (12_xport_and_reels.md): configuration writes, leases, direct
transactions, revocation, and the channels' work. -/

namespace Sys2Proof.Machine

/-! ### Configuration writes (R577) -/

/-- The port is idle: no lease is held, and no first recovery is in progress (R465, R467, R577). -/
def xpIdle (s : State) : Bool := s.xp.holder.isNone && (!s.xp.recovering || s.xp.blocked)

/-- The registers of R577. -/
def xpDelayed (r : Nat) : Bool :=
  r == Reg.xpCfg || r == Reg.xpTiming || (decide (Reg.xpPhase 0 ≤ r) && decide (r ≤ Reg.xpPhase 3))
    || r == Reg.xpDevSize 0 || r == Reg.xpDevSize 1

/-- A register's new value waits in a list, the newer in place of an older one. -/
def pendPut (l : List (Nat × Word)) (r : Nat) (w : Word) : List (Nat × Word) := l.filter (fun e => e.1 != r) ++ [(r, w)]

/-- The waiting writes take effect. -/
def xpApply (s : State) : State :=
  let t := s.xp.cfgPend.foldl (fun s e => setReg s e.1 e.2) s
  { t with xp := { t.xp with cfgPend := [] } }

/-- A configuration register takes its value, after those that waited before it, or waits for an idle port. -/
def xpConfigWrite (s : State) (r : Nat) (w : Word) : State :=
  if xpIdle s then setReg (xpApply s) r w else { s with xp := { s.xp with cfgPend := pendPut s.xp.cfgPend r w } }

/-- XP_CFG_APPLY (R577). -/
def execXpCfgApply (s : State) : Host.Outcome State Fault Refusal := .next (if xpIdle s then xpApply s else s)

/-! ### Direct transactions (R597 to R599) -/

/-- Address bytes that a direct transaction sends (Table 12.9). -/
def directAddrBytes (s : State) (w : Word) : Nat :=
  match fld w 19 18 with
  | 0 => 0
  | 1 => 3
  | 2 => 4
  | _ => addrBytes (getReg s (Reg.xpPhase (fld w 23 22)))

/-- A transaction to an absent device, or to an address beyond it, is not made (R575). -/
def directAbsent (s : State) (w : Word) : Bool :=
  let d := fld w 21 21
  let n := directAddrBytes s w
  let a := (getReg s Reg.xpDaddr).toNat
  devAbsent s d || (n != 0 && decide (a + max 1 (fld w 5 0) > min (devSize s d) (2 ^ (8 * n))))

/-- A write of XP_DCMD with GO: the transaction that its fields describe waits for its lease. Whether it can be made is
judged under the settings in force when the lease is granted (R575, R577). -/
def directGo (s : State) : State := { s with xp := { s.xp with direct := true } }

/-- A direct transaction ends and releases its lease; ERR says that it was abandoned or revoked. -/
def directEnd (s : State) (err : Bool) : State :=
  let s := setB s Reg.xpDcmd 14 true
  let s := if err then setB s Reg.xpDcmd 13 true else s
  { s with xp := { s.xp with direct := false, holder := if s.xp.holder == some 8 then none else s.xp.holder } }

/-- Byte i of XP_DBUF replaced (R597). -/
def putDbuf (s : State) (i : Nat) (b : Byte) : State := setF s (Reg.xpDbuf (i / 4)) (8 * (i % 4) + 7) (8 * (i % 4)) b.toNat

/-- DIRECT_TRANSACTION_END (R597, R599): a read fills XP_DBUF; what a write did to its memory is not known. -/
def execDirectTransactionEnd (data : Vector Byte 32) (s : State) : Host.Outcome State Fault Refusal :=
  if s.xp.direct && s.xp.holder == some 8 then
    let w := getReg s Reg.xpDcmd
    let s := if bit w 20 then extForget s
      else (List.range (fld w 5 0)).foldl (fun s i => putDbuf s i (vget data i 0)) s
    let s := if bit w 16 then setB s Reg.xpStatus (8 + fld w 21 21) true else s
    .next (directEnd s false)
  else .next s

/-- XP_TIMEOUT (R594): a direct transaction is abandoned. -/
def execXpTimeout (s : State) : Host.Outcome State Fault Refusal :=
  if s.xp.direct && s.xp.holder == some 8 then
    let d := getF s Reg.xpDcmd 21 21
    let s := if getB s Reg.xpDcmd 20 then extForget s else s
    let s := logHw (setB s Reg.xpStatus 10 true) .xpTimeout (BitVec.ofNat 32 (d * 2 ^ 27))
    .next (directEnd s true)
  else .next s

/-! ### Channels: enable, stop, end -/

/-- Cells that a chain feed's transfer takes: top w bits of each (R616). -/
def feedBits (s : State) (ch : Nat) : Nat := getF s (Reg.ropProf (chF s ch 0 7 4)) 23 19 + 1
def feedCells (s : State) (ch : Nat) : Nat :=
  let w := feedBits s ch
  (getF s (Reg.ropProf (chF s ch 0 7 4)) 11 0 + 1 + w - 1) / w

/-- The ring of a reel stream (R604). -/
def ringOk (s : State) (ch : Nat) : Bool :=
  let c := chF s ch 4 11 8
  decide (2 ≤ c) && decide (c ≤ 8) && decide (chF s ch 4 4 0 + c - 1 ≤ 31)

/-- Whether the configuration of a channel is one of Table 12.11 (R603, R604, R616, R617). -/
def chLegal (s : State) (ch : Nat) : Bool :=
  let src := chF s ch 0 28 26
  let dst := chF s ch 0 25 23
  let len := chLen s ch
  let from' := decide (src = 2) || decide (src = 3)
  match chKind s ch with
  | 0 => from' && decide (1 ≤ len) && decide (len ≤ 4096) && ringOk s ch && decide (chF s ch 0 10 8 < chF s ch 4 11 8)
      && (!getB s (Reg.rel ch 0) 19 || nbit (lineCell s (chF s ch 0 18 11) 1).toNat 22)
  | 1 => decide (src ≤ 3) && (decide (dst ≤ 1) || (decide (dst = 3) && devKind s 1 == 2))
      && decide (1 ≤ len) && decide (len ≤ 131072)
  | 2 => decide (src = 0) && decide (1 ≤ len) && decide (len ≤ 4096) && decide (chF s ch 1 31 0 + 2 * len ≤ 131072)
      && getB s (Reg.ropProf (chF s ch 0 7 4)) 31 && decide (feedBits s ch ≤ 24) && decide (feedCells s ch ≤ len)
  | _ => from' && decide (4 ≤ dst) && decide (dst ≤ 6) && decide (1 ≤ len) && decide (len ≤ 8192)
      && !lockedMode s.power.mode

/-- A channel leaves its work with a STATE and an ERRCODE; done, FAULTED and error post an event (R607). -/
def chEnd (s : State) (ch : Nat) (st : ChState) (err : Nat) : State :=
  let s := setChan s ch { chan s ch with st := st, err := BitVec.ofNat 8 err, fill := none, leave := false }
  let s := if s.xp.holder == some ch then { s with xp := { s.xp with holder := none } } else s
  match st with
  | .done | .faulted | .error => sysEvent (postEvent s 18 (fun d => d ||| BitVec.ofNat 24 (2 ^ ch))) 8
  | _ => s

/-- EN is written 1 (R603, R606, R622): a running channel goes on; a legal configuration starts; any other is an error. -/
def chStart (s : State) (ch : Nat) : State :=
  let c := chan s ch
  if c.st == .running then s
  else if chLegal s ch then
    let keep := c.st == .faulted
    let s := setChan s ch { Channel.init with
      st := .running, pos := if keep then c.pos else 0, ready := if keep then c.ready else [], sending := c.sending }
    reelPrune s ch
  else chEnd s ch .error 0xFF

/-- EN is written 0 (R602): the channel stops at its next burst boundary, at once when it transfers nothing. -/
def chStop (s : State) (ch : Nat) : State :=
  if (chan s ch).st == .running && s.xp.holder == some ch then setChan s ch { chan s ch with leave := true }
  else chEnd s ch .idle 0

/-! ### Moving cells -/

/-- One source cell of a copy (Table 12.11): none where it cannot be read, with the error code. -/
def copyRead (s : State) (ch i : Nat) : Except Nat Cell × State :=
  let a := chF s ch 1 31 0
  let pack := chF s ch 0 22 21
  let internal := fun (r : RamId) (top : Nat) (v : Nat → Cell) =>
    if a + i ≥ top then (Except.error 0x02, s)
    else
      let (bad, s1) := eccRead s r (a + i)
      if bad then (Except.error 0x07, logHw s1 .ramEcc (BitVec.ofNat 32 (5 * 2 ^ 28 + a + i))) else (Except.ok (v (a + i)), s1)
  match chF s ch 0 28 26 with
  | 0 => internal .strand 131072 (strandCell s)
  | 1 => internal .deck 4096 (sget zero s.mem.deck)
  | src =>
    let d := src - 2
    if extAbsent s d (a + i * pack) pack (readProf s d) then (Except.error 0x02, s)
    else (Except.ok (extCell s d (a + i * pack) pack), s)

/-- One destination cell of a copy. -/
def copyWrite (s : State) (ch i : Nat) (v : Cell) : Except Nat State :=
  let a := chF s ch 2 31 0 
  let pack := chF s ch 0 22 21
  match chF s ch 0 25 23 with
  | 0 => if a + i ≥ 131072 then .error 0x02
         else .ok { s with mem := eccClear { s.mem with strand := sput zero s.mem.strand (a + i) v } .strand (a + i) }
  | 1 => if a + i ≥ 4096 then .error 0x02
         else .ok { s with mem := eccClear { s.mem with deck := sput zero s.mem.deck (a + i) v } .deck (a + i) }
  | _ => if extAbsent s 1 (a + i * pack) pack (writeProf s 1) then .error 0x02
         else .ok (extStore s 1 (a + i * pack) pack v)

/-- One unit of an image load, into both copies of a banked store (R615). -/
def loadUnit (s : State) (ch i : Nat) : Except Nat Cell × State :=
  let d := chF s ch 0 28 26 - 2
  let src := chF s ch 1 31 0
  let dst := chF s ch 2 31 0 + i
  let at24 := fun o => BitVec.ofNat 24 (leNat ((List.range 3).map (fun k => extByte s d (o + k))))
  let clr := fun (m : Mem) (rs : List RamId) (a : Nat) => rs.foldl (fun m r => eccClear m r a) m
  match chF s ch 0 25 23 with
  | 4 =>
    let o := src + 4 * i
    if dst ≥ 8192 ∨ extAbsent s d o 4 (readProf s d) = true then (.error 0x02, s)
    else
      let w : Word := BitVec.ofNat 32 (leNat ((List.range 4).map (fun k => extByte s d (o + k))))
      let m := { s.mem with prog0 := sput zero s.mem.prog0 dst w, prog1 := sput zero s.mem.prog1 dst w }
      (.ok 0, { s with mem := clr m [.prog0, .prog1] dst })
  | 5 =>
    let o := src + 3 * i
    if dst ≥ 8192 ∨ extAbsent s d o 3 (readProf s d) = true then (.error 0x02, s)
    else
      let m := { s.mem with table0 := sput zero s.mem.table0 dst (at24 o), table1 := sput zero s.mem.table1 dst (at24 o) }
      (.ok 0, { s with mem := clr m [.table0, .table1] dst })
  | _ =>
    let o := src + 9 * i
    if dst ≥ 256 ∨ extAbsent s d o 9 (readProf s d) = true then (.error 0x02, s)
    else
      (.ok 0, { s with mem := (List.range 3).foldl (fun m w =>
        let v := if w = 2 then at24 (o + 6) &&& 0x0FFFFF else at24 (o + 3 * w)
        eccClear { m with line := sput zero m.line (4 * dst + w) v, eccLogged := m.eccLogged.filter (· != dst) } .line
          (4 * dst + w)) s.mem })

/-- One unit of a copy or image load: an error ends the channel (R575, R619). -/
def moveUnit (s : State) (ch : Nat) : State :=
  let i := (chan s ch).units
  let done := fun (s : State) => setChan s ch { chan s ch with units := i + 1 }
  if chKind s ch = 3 then
    match loadUnit s ch i with
    | (.ok _, s) => done s
    | (.error e, s) => chEnd s ch .error e
  else
    match copyRead s ch i with
    | (.error e, s) => chEnd s ch .error e
    | (.ok v, s) =>
      match copyWrite s ch i v with
      | .error e => chEnd s ch .error e
      | .ok s => done s

/-- Up to n units, as long as the channel runs and has any left. -/
def moveUnits (s : State) (ch : Nat) : Nat → State
  | 0 => s
  | n + 1 => if (chan s ch).st == .running && decide ((chan s ch).units < chLen s ch) then moveUnits (moveUnit s ch) ch n else s

/-! ### Bursts (R613) -/

/-- The most data bytes of one transaction under CS_MAX (Table 12.5): at least 1. -/
def csBytes (s : State) (p : Word) : Nat :=
  let cycles := getF s Reg.xpTiming 23 16 * 98304 / 1000 / max 1 (getF s Reg.xpCfg 5 0)
  let per := laneCount (fld p 13 12) * (if bit p 11 then 2 else 1)
  max 1 ((cycles - transCycles p (bit p 10) 0) * per / 8)

/-- The bytes of the burst at byte o of a transfer of total bytes from an address of device d (R613): at most 256, and
never across the end of the transfer's page, a BOUND boundary or the CS_MAX limit. -/
def burstLen (s : State) (d addr total o : Nat) (p : Word) : Nat :=
  let n := min 256 (total - o)
  let bound := 512 * 2 ^ getF s (Reg.xpDevSize d) 9 8
  let n := if bound = 512 then n else min n (bound - (addr + o) % bound)
  if getF s Reg.xpTiming 23 16 = 0 then n else min n (csBytes s p)

/-- The bytes moved by the first k bursts of a transfer, from byte o on. -/
def burstBytes (s : State) (d addr total : Nat) (p : Word) : Nat → Nat → Nat
  | 0, o => o
  | k + 1, o => if o ≥ total then total else burstBytes s d addr total p k (o + burstLen s d addr total o p)

/-! ### Leases (R586 to R588) -/

/-- The devices that a channel's configuration names. -/
def chDevs (s : State) (ch : Nat) : List Nat :=
  let src := chF s ch 0 28 26
  let dst := chF s ch 0 25 23
  (if src = 2 then [0] else if src = 3 then [1] else [])
    ++ (if chKind s ch = 1 ∧ dst = 3 then [1] else [])

/-- A channel's work needs no lease: a copy inside the device (R614), a chain feed. -/
def chInternal (s : State) (ch : Nat) : Bool := (chDevs s ch).isEmpty

/-- The page that a reel stream would fill next (R611). -/
def nextFill (s : State) (ch : Nat) : Option Nat := (reelWindow s ch).find? (fun p => !(chan s ch).ready.contains p)

/-- A channel asks for a lease: running, its devices neither busy (R599) nor withheld (R467), and work to do. -/
def chWants (s : State) (ch : Nat) : Bool :=
  (chan s ch).st == .running && chEn s ch && !chInternal s ch && !getB s Reg.relCtrl 0
    && (chDevs s ch).all (fun d => !devBusy s d && !(s.xp.blocked && d == 0))
    && (if chKind s ch = 0 then (nextFill s ch).isSome else decide ((chan s ch).units < chLen s ch))

/-- The channel of a kind that wants a lease and has the lowest key; ties go to the lower number. -/
def pickChan (s : State) (kind : Nat) (key : Nat → Nat) : Option Nat :=
  ((List.range 8).filter (fun ch => chKind s ch == kind && chWants s ch)).foldl (fun best ch =>
    match best with
    | none => some ch
    | some b => if key ch < key b then some ch else some b) none

/-- The first waiting requester (R587). -/
def leaseNext (s : State) : Option Nat :=
  match pickChan s 0 (fun ch => (chan s ch).margin) with
  | some ch => some ch
  | none =>
    if s.xp.direct && !(s.xp.blocked && getF s Reg.xpDcmd 21 21 == 0) then some 8
    else
      match pickChan s 3 (fun _ => 0) with
      | some ch => some ch
      | none => pickChan s 1 (fun _ => 0)

def leaseTake (s : State) (h : Nat) : State := { s with xp := { s.xp with holder := some h, since := s.clock.time } }
def leaseDrop (s : State) : State := { s with xp := { s.xp with holder := none } }

/-- The source bytes of a reel page (R608). -/
def fillAbsent (s : State) (ch p : Nat) : Bool :=
  let d := chF s ch 0 28 26 - 2
  let pack := chF s ch 0 22 21
  extAbsent s d (chF s ch 1 31 0 + p * 4096 * pack) (4096 * pack) (readProf s d)

/-- A lease goes to a channel: a page fill begins, or a job unit of 4096 that is not the last is done and released. -/
def leaseChan (s : State) (ch : Nat) : State :=
  if chKind s ch = 0 then
    match nextFill s ch with
    | none => s
    | some p =>
      if fillAbsent s ch p then chEnd s ch .error 0x02
      else leaseTake (setChan s ch { chan s ch with fill := some p }) ch
  else leaseTake s ch

/-- Cells of a reel page written into its ring frame, the first n of them. -/
def fillCells (s : State) (ch p n : Nat) : State :=
  let d := chF s ch 0 28 26 - 2
  let pack := chF s ch 0 22 21
  let src := chF s ch 1 31 0 + p * 4096 * pack
  let frame := (chF s ch 4 4 0 + p % chF s ch 4 11 8) % 32
  { s with mem := (List.range n).foldl (fun m k =>
      eccClear { m with strand := sput zero m.strand (frame * 4096 + k) (extCell s d (src + k * pack) pack) } .strand
        (frame * 4096 + k)) s.mem }

/-- The bytes of one unit of a copy or image load at its external side (R594, R615). -/
def unitBytes (s : State) (ch : Nat) : Nat :=
  if chKind s ch = 3 then (match chF s ch 0 25 23 with
    | 4 => 4
    | 5 => 3
    | _ => 9)
  else chF s ch 0 22 21

/-- The external address of unit i of a copy or image load, with its device and profile. -/
def unitAddr (s : State) (ch i : Nat) : Nat × Nat × Word :=
  let src := chF s ch 0 28 26
  if src = 2 ∨ src = 3 then (src - 2, chF s ch 1 31 0 + i * unitBytes s ch, readProf s (src - 2))
  else (1, chF s ch 2 31 0 + i * unitBytes s ch, writeProf s 1)

/-- The cells or units that the bursts done so far have moved, how many bursts being open. -/
def burstMove (s : State) (ch : Nat) : State :=
  let (k, s) := takeFree s
  let n := Config.burstsDone k
  match (chan s ch).fill with
  | some p =>
    let d := chF s ch 0 28 26 - 2
    let pack := chF s ch 0 22 21
    fillCells s ch p (burstBytes s d (chF s ch 1 31 0 + p * 4096 * pack) (4096 * pack) (readProf s d) n 0 / pack)
  | none =>
    let (d, addr, p) := unitAddr s ch (chan s ch).units
    let left := min 4096 (chLen s ch - (chan s ch).units)
    moveUnits s ch (burstBytes s d addr (left * unitBytes s ch) p n 0 / unitBytes s ch)

/-- The transfer that was to end reaches its burst boundary: what its bursts moved stands, the lease is released, and a
channel whose EN is 0 is idle (R602, R611, R620). -/
def burstEnd (s : State) (ch : Nat) : State :=
  let t := burstMove s ch
  let t := leaseDrop (setChan t ch { chan t ch with fill := none, leave := false })
  if chEn t ch then t else chEnd t ch .idle 0

/-- A job unit that another grant shows to be over (R586): a transfer that was to end at its burst boundary, or 4096 units
of a copy or image load that has more. -/
def leaseSettle (s : State) : State :=
  match s.xp.holder with
  | some h =>
    if h ≥ 8 then s
    else if (chan s h).leave then burstEnd s h
    else if chKind s h != 0 && decide (chLen s h - (chan s h).units > 4096) then leaseDrop (moveUnits s h 4096)
    else s
  | none => s

/-- Leases are granted in this state (R202, R577, R586). -/
def leaseOpen (s : State) : Bool := xpIdle s && s.xp.cfgPend.isEmpty && pinModes s.power.mode && s.power.mode != .quiesce

/-- The free lease goes to the first waiting requester; a direct transaction that cannot be made ends unmade (R575). -/
def leaseGive (s : State) : State :=
  match leaseNext s with
  | none => s
  | some h =>
    if h ≠ 8 then leaseChan s h
    else if directAbsent s (getReg s Reg.xpDcmd) then { s with xp := { s.xp with direct := false } }
    else leaseTake s 8

/-- A job unit ends and its lease is released, and the free lease goes to the first waiting requester (R586, R587). -/
def leaseGrant (s0 : State) : State :=
  let s := leaseSettle s0
  if leaseOpen s then leaseGive s else s

end Sys2Proof.Machine
end

