-- ==== Sys2Proof/Machine/Reel.lean ====
section
/-! DEFINITION. The Reel engine's commands, its work at frame and light ticks, and the revocation of leases (R465 to
R468, R586 to R622). -/

namespace Sys2Proof.Machine

/-! ### Pages -/

/-- LEASE_GRANT (R587). -/
def execLeaseGrant (s : State) : Host.Outcome State Fault Refusal := .next (leaseGrant s)

/-- PAGE_READY (R611): the page that the channel's lease fills is complete; the fill of a page that has left the window, or
of a stopped channel, has reached its burst boundary. -/
def execPageReady (ch : Fin 8) (s : State) : Host.Outcome State Fault Refusal :=
  match (chan s ch.val).fill with
  | none => .next s
  | some p =>
    if s.xp.holder == some ch.val then
      if (chan s ch.val).leave then .next (burstEnd s ch.val)
      else
      let s := fillCells s ch.val p 4096
      .next (leaseDrop (setChan s ch.val { chan s ch.val with ready := (chan s ch.val).ready ++ [p], fill := none }))
    else .next s

/-- CHANNEL_DONE (R607, R614, R615): the last job unit of a copy or image load is over, or a stopped one has reached its
burst boundary. -/
def execChannelDone (ch : Fin 8) (s : State) : Host.Outcome State Fault Refusal :=
  let n := ch.val
  let mine := (chan s n).st == .running && (chKind s n == 1 || chKind s n == 3)
  let last := s.xp.holder == some n && decide (chLen s n - (chan s n).units ≤ 4096)
  if mine && (chan s n).leave then .next (burstEnd s n)
  else if mine && (chInternal s n || last) then
    let t := moveUnits s n (chLen s n - (chan s n).units)
    .next (if (chan t n).st == .running then chEnd t n .done 0 else t)
  else .next s

/-! ### Revocation (R465 to R468) -/

/-- The device of the holder's transfer. -/
def leaseDev (s : State) (h : Nat) : Nat :=
  if h = 8 then getF s Reg.xpDcmd 21 21
  else match chDevs s h with
    | d :: _ => d
    | [] => 0

/-- What the holder had moved when its lease was taken: open. -/
def revokePartial (s : State) (ch : Nat) : State :=
  let (k, s) := takeFree s
  let n := Config.revokedUnits k
  match (chan s ch).fill with
  | some p => fillCells s ch p (n % 4097)
  | none => if chKind s ch = 0 then s else moveUnits s ch (n % 4097)

/-- The reset of step 3 (R465, R582): through XRST# of both devices, or by JESD252 of the one concerned. -/
def resetStart (s : State) (d : Nat) : State :=
  let mask := if getB s Reg.xpResetCfg 31 then 3 else 2 ^ d
  { s with xp := { s.xp with recovering := true, resetAt := s.clock.time, resetDevs := Nat.lor s.xp.resetDevs mask } }

/-- XP_LEASE_REVOKED (R465, Table 9.9, R621): addr is the transfer's external byte address / 256. -/
def execXpLeaseRevoked (addr : BitVec 24) (s : State) : Host.Outcome State Fault Refusal :=
  match s.xp.holder with
  | none => .next s
  | some h =>
    let d := leaseDev s h
    let s := logHw s .xpLeaseRevoked (BitVec.ofNat 32 (h * 2 ^ 28 + d * 2 ^ 27 + addr.toNat))
    let s := setB (countUp s Reg.cltLease 23 16) Reg.cltLease 26 true
    let s :=
      if h < 8 then
        let s := revokePartial s h
        setB (chEnd s h .faulted 0x10) (Reg.rel h 0) 31 false
      else directEnd (if getB s Reg.xpDcmd 20 then extForget s else s) true
    .next (pinSettle (resetStart { s with xp := { s.xp with holder := none } } d))

/-- The SFDP read of step 4 succeeds (R584): the signature is there, and nothing differs from the copies of bring-up. -/
def sfdpMatches (s : State) : Option Sfdp → Bool
  | none => false
  | some f => match s.xp.sfdp with
    | some copy => f == copy
    | none => true

/-- XP_RECOVERY (R465, R467, R584, R585): after a reset of device 0 its SFDP is read again and the entry sequence is sent;
until the read succeeds, device 0 gets no lease, steps 3 and 4 are repeated, and only the first failure is logged. A reset
of device 1 alone is over. -/
def execXpRecovery (sfdp : Option Sfdp) (s : State) : Host.Outcome State Fault Refusal :=
  if !s.xp.recovering then .next s
  else if !nbit s.xp.resetDevs 0 then .next { s with xp := { s.xp with recovering := false, resetDevs := 0 } }
  else if sfdpMatches s sfdp then
    .next { s with xp := { s.xp with recovering := false, resetDevs := 0, blocked := false, entrySent := s.xp.entry } }
  else
    let t := setB s Reg.xpStatus 11 true
    let t := if s.xp.blocked then t else logHw t .xpTimeout 0
    .next { t with xp := { t.xp with blocked := true } }

/-! ### Frame ticks, light ticks, modes -/

/-- The Reel engine reads cells of one memory up to the first with an uncorrectable error (R271, R619). -/
def engineReads (s : State) (r : RamId) : List Nat → Option Nat × State
  | [] => (none, s)
  | a :: rest =>
    let (bad, t) := eccRead s r a
    if bad then (some a, t) else engineReads t r rest

/-- The log entry of an uncorrectable error that the Reel engine reads (R619). -/
def engineFault (s : State) (a : Nat) : State := logHw s .ramEcc (BitVec.ofNat 32 (5 * 2 ^ 28 + a))

/-- The position follows tap 0 of a line whose REEL is 1 (R279, R609); it stays where the tap lies outside the reel or the
descriptor cannot be read. -/
def reelFollow (s0 : State) (ch line : Nat) : State :=
  match engineReads s0 .line [4 * line, 4 * line + 1, 4 * line + 2] with
  | (some a, s) => engineFault s a
  | (none, s) =>
    if nbit (lineCell s line 1).toNat 22 then
      match reelIndex s ch (tapAddr s line 0) with
      | some p => setChan s ch { chan s ch with pos := p }
      | none => s
    else s

/-- A reel stream at a frame tick, after heads advance (R279, R609, Table 12.12). -/
def reelTickChan (s : State) (ch : Nat) : State :=
  if !((chan s ch).st == .running && chKind s ch == 0) then s
  else
    let line := chF s ch 0 18 11
    let s := if getB s (Reg.rel ch 0) 19 then reelFollow s ch line else s
    let s := reelPrune s ch
    let s := setChan s ch { chan s ch with margin := reelMargin s ch }
    tallySample s 0x4 ch false (chan s ch).margin

def reelTick (s : State) : State := (List.range 8).foldl reelTickChan s

/-- The cells of the buffer that a chain feed sends (R616): the one named, up to what the transfer takes. -/
def feedBuffer (s : State) (ch : Nat) (buf : Bool) : Nat := chF s ch 1 31 0 + (if buf then chLen s ch else 0)

def feedSkip (s : State) (ch : Nat) : State := setB s (Reg.rel ch 5) 25 true

/-- Chain feeds enter the rope's wire after the transfer in progress, in channel order (R640). -/
def wireFeed (wire : List Job) (j : Job) : List Job :=
  match wire with
  | [] => [j]
  | cur :: rest =>
    let isFeed : Job → Bool := fun x => match x with
      | .feed _ _ _ => true
      | .xfer _ _ _ _ _ _ _ | .service _ _ => false
    cur :: (rest.takeWhile isFeed ++ j :: rest.dropWhile isFeed)

/-- A chain feed at a light tick (R616, R618, R619, R834, R669): in HOLDOVER the buffer last sent goes again. -/
def feedTick (s : State) (ch : Nat) : State :=
  let c := chan s ch
  if !(c.st == .running && chKind s ch == 2) then s
  else if c.sending || !getB s Reg.ropCfg 31 then feedSkip s ch
  else
    let hold := s.power.mode == .holdover
    let base := feedBuffer s ch (if hold then !c.buf else c.buf)
    match engineReads s .strand ((List.range (chLen s ch)).map (base + ·)) with
    | (some a, s) => feedSkip (engineFault s a) ch
    | (none, s) =>
      let cells := (List.range (feedCells s ch)).map (fun k => strandCell s (base + k))
      let s := setChan s ch { c with sending := true, buf := if hold then c.buf else !c.buf }
      { s with rope := { s.rope with wire := wireFeed s.rope.wire (.feed ch (BitVec.ofNat 8 (chF s ch 2 7 0)) cells) } }

def feedTicks (s : State) : State := (List.range 8).foldl feedTick s

/-- Every channel stops at its next burst boundary and then reads idle (R202, R620). -/
def reelQuiesce (s : State) : State :=
  (List.range 8).foldl (fun s ch =>
    let s := setB s (Reg.rel ch 0) 31 false
    if (chan s ch).st == .running && s.xp.holder == some ch then setChan s ch { chan s ch with leave := true }
    else setChan s ch { chan s ch with st := .idle, fill := none, leave := false }) s

end Sys2Proof.Machine
end

