-- ==== Sys2Proof/Machine/Straps.lean ====
section
/-! DEFINITION. Resistor straps (03_straps.md): decoding the readings, the role, overrides, and the tables that the
codes select from. -/

namespace Sys2Proof.Machine

/-- Acceptance windows of Table 3.2, code 0 first. -/
def strapWindows : List (Nat × Nat) := [
  (0, 16), (24, 60), (68, 110), (120, 172), (186, 254), (272, 362), (386, 486), (518, 632),
  (672, 816), (868, 1056), (1120, 1360), (1440, 1712), (1808, 2144), (2264, 2688), (2842, 3392), (3700, 4095)]

/-- The window holding a read mean, if any (R118). -/
def strapWindow (mean : Nat) : Option Nat :=
  (List.range 16).find? (fun i => match strapWindows[i]? with
    | some (lo, hi) => decide (lo ≤ mean) && decide (mean ≤ hi)
    | none => false)

/-- The mean of 16 conversions, a half rounded up (R117). -/
def readMean (v : Vector (BitVec 12) 16) : Nat := (v.toList.foldl (fun n x => n + x.toNat) 0 + 8) / 16

/-- A pin's code from its three reads (R121, R123, Table 3.11). -/
def decodeStrap (reads : Vector (Vector (BitVec 12) 16) 3) : Strap :=
  let m := reads.toList.map readMean
  let a := m.getD 0 0
  let b := m.getD 1 0
  let c := m.getD 2 0
  let spread := max a (max b c) - min a (min b c)
  let w := strapWindow a
  let ok := w.isSome && strapWindow b == w && strapWindow c == w
  { amb := !ok, raw := BitVec.ofNat 12 c, spread := BitVec.ofNat 8 (min spread 255),
    code := if ok then BitVec.ofNat 4 (w.getD 15) else 15 }

/-- The seven straps decided (R115). -/
def decodeStraps (r : StrapReads) : Straps := { pins := r.map decodeStrap }

/-- A strap register's content (Table 3.11). -/
def strapWord (p : Strap) : Word :=
  BitVec.ofNat 32 (b2n p.amb * 2 ^ 31 + p.raw.toNat * 65536 + p.spread.toNat * 16 + p.code.toNat)

/-- The roles of Table 3.3. -/
inductive Role where
  | standalone | manager | worker | standbyManager | workshop | none
  deriving DecidableEq, Repr

def msAmbiguous (s : State) : Bool := (vget s.straps.pins 0 ⟨false, 0, 0, 0⟩).amb

/-- The role that MS gives (R125); none when MS is ambiguous or reserved (R124). -/
def role (s : State) : Role :=
  let ms := msCode s
  if msAmbiguous s then .none
  else if ms ≤ 3 ∨ ms = 15 then .standalone
  else if ms ≤ 6 then .manager
  else if ms ≤ 9 then .worker
  else if ms = 10 then .standbyManager
  else if ms = 14 then .workshop
  else .none

def isManagerRole (r : Role) : Bool := r == .manager || r == .standbyManager

/-- The code in force for strap k (1 to 4 CFG0 to CFG3, 5 BIN0, 6 BIN1): the override taken at the last warm restart,
else the strap's (R150, R151). -/
def codeInForce (s : State) (k : Nat) : Nat :=
  if bit s.power.override (23 + k) then fld s.power.override (4 * k - 1) (4 * k - 4) else strapCode s k

/-- The strap LIMP reason of the codes in force (R122, R126, R137): ambiguous, reserved, or a worker's node index 0. -/
inductive StrapFault where
  | ok | ambiguous | reserved
  deriving DecidableEq, Repr

def nodeIndex (s : State) : Nat := 16 * codeInForce s 3 + codeInForce s 4

def strapFault (s : State) : StrapFault :=
  if msAmbiguous s then .ambiguous
  else if 11 ≤ msCode s ∧ msCode s ≤ 13 then .reserved
  else if role s == .worker && nodeIndex s == 0 then .reserved
  else .ok

/-- Boot sources by MS code (R168, Table 4.7). -/
inductive BootSource where
  | slotA | slotB | rom | rope
  deriving DecidableEq, Repr

def bootSources (ms : Nat) : List BootSource :=
  if ms = 2 ∨ ms = 3 ∨ ms = 4 ∨ ms = 5 ∨ ms = 10 then [.slotA, .slotB, .rom]
  else if ms = 7 ∨ ms = 8 then [.rope]
  else if ms = 0 ∨ ms = 1 ∨ ms = 6 ∨ ms = 9 ∨ ms = 15 then [.rom]
  else []

/-- The bit of ROLES in a bundle head that the role needs (Table 11.1); none under MS code 14. -/
def roleBit (s : State) : Option Nat :=
  match role s with
  | .standalone => some 0
  | .manager => some 1
  | .worker => some 2
  | .standbyManager => some 3
  | .workshop => none
  | .none => some 0

/-- The ROM Lay that CFG0 selects in this role (R129, R130). That code 15, "same as 0" in Table 3.4, is ROM Lay 0 by number
too, so that SYS_STATUS.VARIANT reads 0, is a DESIGN CHOICE: log entry 81. -/
def romLay (s : State) : Nat :=
  let c := codeInForce s 1
  if c = 11 then (if role s == .manager then 11 else 0)
  else if c = 12 then (if role s == .worker then 12 else 0)
  else if c = 15 then 0
  else c

/-- CFG1 (Table 3.5): rate code, Port A set-up code, amplifier present, Port B on. -/
def cfg1Rate (c : Nat) : BitVec 2 :=
  if c = 4 ∨ c = 5 ∨ c = 11 ∨ c = 13 then 2 else if c = 6 ∨ c = 7 ∨ c = 14 then 0 else 1
def cfg1Amp (c : Nat) : Bool := decide (c ≤ 11)
def cfg1PortB (c : Nat) : Bool := c == 10 || c == 11

/-- The grouping code (R140): CFG2 in the standalone role, else 0. -/
def groupCode (s : State) : Nat := if role s == .standalone then codeInForce s 3 else 0

/-- A sink that the grouping leaves unused (Table 3.7). -/
def sinkUnused (g n : Nat) : Bool :=
  ((g == 8 || g == 14) && decide (n ≥ 12)) || (g == 9 && decide (n ≥ 8)) || (g == 10 && decide (n ≥ 16))

/-- The fail-safe pattern code (R141, R143). -/
def fsPattern (s : State) : Nat := if role s == .standalone then codeInForce s 4 else 15

/-- A fail-safe pattern entry: current-scale code and the sinks of a range (Table 3.8); code 0 drives none. -/
def fsEntry (pattern input : Nat) : Nat × Nat :=
  let all := 0xFFFFFF
  let r := fun (a b : Nat) => 2 ^ (b + 1) - 2 ^ a
  match pattern, input with
  | 0, 0 => (51, all) | 0, 1 => (255, all)
  | 1, 0 => (26, all) | 1, 1 => (255, all)
  | 2, 0 => (77, all) | 2, 1 => (255, all)
  | 3, 0 => (51, r 12 23) | 3, 1 => (255, r 12 23) | 3, 2 => (255, r 0 11)
  | 4, 0 => (51, r 16 23) | 4, 1 => (255, r 16 23) | 4, 2 => (255, r 0 15)
  | 5, 0 => (51, r 16 23) | 5, 1 => (255, r 8 15) | 5, 2 => (255, r 0 7)
  | 6, 0 => (51, r 0 11) | 6, 1 => (255, r 12 23)
  | 7, 2 => (255, all)
  | 8, 2 => (255, r 0 11)
  | 9, 0 => (255, all)
  | 10, 0 => (13, all) | 10, 1 => (255, all)
  | 11, 0 => (26, r 12 23) | 11, 1 => (255, r 12 23) | 11, 2 => (255, r 0 11)
  | 12, 0 => (128, r 0 11)
  | 13, 0 => (128, all)
  | 15, 0 => (51, all) | 15, 1 => (255, all) | 15, 2 => (255, all)
  | _, _ => (0, 0)

/-- BIN0's brightness multiplier in 256ths (R144). -/
def brightness (n : Nat) : Nat := if n = 15 then 256 else 160 + 6 * n

/-- BIN1 as it acts under the grouping (R146, R148). -/
def bin1Acting (s : State) : Nat :=
  let c := codeInForce s 6
  if 8 ≤ c ∧ c ≤ 14 ∧ groupCode s ≠ 7 then 15 else c

/-- Colour-bin factors of a BIN1 code (Table 3.10): red, green, blue in 256ths. -/
def colourBin (c : Nat) : Nat × Nat × Nat :=
  match c with
  | 8 => (256, 232, 208) | 9 => (256, 240, 216) | 10 => (248, 248, 224) | 11 => (240, 256, 232)
  | 12 => (232, 256, 240) | 13 => (224, 248, 256) | 14 => (216, 240, 256)
  | _ => (256, 256, 256)

end Sys2Proof.Machine
end

