-- ==== Sys2Proof/Machine/Light.lean ====
section
/-! DEFINITION. The sinks (17_light_outputs.md; R92 to R95; R197 to R202): duty, latching at light ticks, fail-safe drive,
the hand-over glide, derating and diagnostics. -/

namespace Sys2Proof.Machine

/-! ### Ownership and fail-safe drive (Table 4.12, R829) -/

/-- Fail-safe drive holds the sinks that an asserted FS input names. -/
def fsOwns (m : Mode) : Bool :=
  match m with
  | .off | .run => false
  | .dormant | .standby | .raise | .limp | .holdover | .workshop | .quiesce => true

def fsWord (s : State) (k : Nat) : Word := vget s.light.fs k 0

/-- The code of fail-safe drive on sink n: the largest among the asserted inputs that name it (R142, R829). -/
def fsCode (s : State) (n : Nat) : Nat :=
  [0, 1, 2].foldl (fun c k =>
    if s.pins.fs.getLsbD k && bit (fsWord s k) n then max c (fld (fsWord s k) 31 24) else c) 0

/-- An asserted FS input names sink n. -/
def fsNames (s : State) (n : Nat) : Bool := [0, 1, 2].any (fun k => s.pins.fs.getLsbD k && bit (fsWord s k) n)

/-- The inputs whose fail-safe drive conducts now (R833). -/
def fsDriving (s : State) : Nat :=
  if s.power.factory || !fsOwns s.power.mode then 0
  else [0, 1, 2].foldl (fun acc k =>
    acc + 2 ^ k * b2n (s.pins.fs.getLsbD k && fld (fsWord s k) 31 24 != 0 && fld (fsWord s k) 23 0 != 0)) 0

/-! ### Currents (R810, R812) -/

/-- Duty of a light cell (R812). -/
def dutyOf (c : Cell) : Nat := if c.msb then 0 else min ((c.toNat + 64) / 128) 0xFFFF

/-- The colour factor of a sink (R810). -/
def colourOf (s : State) (n : Nat) : Nat :=
  match getF s (Reg.snkCfg n) 27 26 with
  | 1 => getF s Reg.snkColor 26 18
  | 2 => getF s Reg.snkColor 17 9
  | 3 => getF s Reg.snkColor 8 0
  | _ => 256

/-- The DAC value of R810, rounding half up, scaled by num/den. -/
def dacOf (c m k f num den : Nat) : Nat :=
  let d := 255 * 256 * 256 * 256 * den
  (2 * 4095 * c * m * k * f * num + d) / (2 * d)

/-- The DAC value in use on sink n (SNK_n_CUR.DAC; R112, R197, R202, R811). That the 25 % of R112 comes on top of F (R816),
and that the whole product is rounded once as R810 rounds, is a DESIGN CHOICE: log entry 79. -/
def sinkDac (s : State) (n : Nat) : Nat :=
  let l := vget s.light.latch n ⟨255, 0, false, false, 256⟩
  if s.power.factory then 0
  else if fsOwns s.power.mode && fsNames s n then
    dacOf (fsCode s n) s.light.mult l.kcol s.light.f 1 (if s.power.hotFs then 4 else 1)
  else if !l.en then 0
  else
    match s.power.mode with
    | .run | .holdover | .workshop => dacOf l.code s.light.mult l.kcol s.light.f 1 1
    | .quiesce => dacOf l.code s.light.mult l.kcol s.light.f (64 - s.light.fade) 64
    | _ => 0

/-! ### The PWM output (R53, R813) -/

/-- The PWM counter: 0 at a light tick; a lengthened period holds count 65,535 (R53). A shortened or renumbered period ends
where its light tick restarts the counter (R53, R62). -/
def pwmCount (s : State) : Nat := min (s.clock.time - s.light.pwmStart) 65535

/-- P_n (R813). -/
def pwmPhase (n : Nat) : Nat := n * 65536 / 24

/-- The PWM output of sink n at a duty and a count (R813). -/
def pwmOn (n duty count : Nat) : Bool := duty == 0xFFFF || decide ((count + 65536 - pwmPhase n) % 65536 < duty)

/-- Sink n conducts now: fail-safe drive with no PWM (R829), else the PWM output of a Lay-driven sink (R811, R813). -/
def sinkOn (s : State) (n : Nat) : Bool :=
  let l := vget s.light.latch n ⟨255, 0, false, false, 256⟩
  sinkDac s n != 0 && (fsOwns s.power.mode && fsNames s n || pwmOn n l.duty (pwmCount s))

/-! ### Strap values (R140 to R148, R830) -/

/-- The fail-safe registers take the strap pattern, without the sinks that the grouping leaves unused. -/
def fsReload (s : State) : State :=
  let g := groupCode s
  let used := (List.range 24).foldl (fun m n => if sinkUnused g n then m else m + 2 ^ n) 0
  let word := fun k =>
    let (c, m) := fsEntry (fsPattern s) k
    BitVec.ofNat 32 (c * 2 ^ 24 + Nat.land m used)
  let s := [0, 1, 2].foldl (fun s k => setReg s (Reg.snkFs k) (word k)) s
  { s with light := { s.light with fs := [0, 1, 2].foldl (fun v k => vset v k (word k)) s.light.fs } }

/-- Forward voltage of a sink from BIN1 (Table 17.2). -/
def strapVf (s : State) (n : Nat) : Nat :=
  let b := bin1Acting s
  if b ≤ 7 then 95 + 10 * b
  else if b = 15 then 105
  else if n % 3 = 0 then 105 else 150

/-- The sink registers at their strap values (Table 17.1, Table 17.2); M and K apply to fail-safe drive at once (R145,
R147, R816). -/
def sinkStraps (s : State) : State :=
  let b := bin1Acting s
  let colours := decide (8 ≤ b) && decide (b ≤ 14)
  let (r, g, bl) := colourBin b
  let s := setF s Reg.snkGlobal 16 8 (brightness (codeInForce s 5))
  let s := setReg s Reg.snkColor (BitVec.ofNat 32 (r * 2 ^ 18 + g * 2 ^ 9 + bl))
  let s := (List.range 24).foldl (fun s n =>
    setReg s (Reg.snkCfg n) (BitVec.ofNat 32 (b2n (!sinkUnused (groupCode s) n) * 2 ^ 31 + 2 ^ 29
      + (if colours then n % 3 + 1 else 0) * 2 ^ 26 + strapVf s n * 256))) s
  let s := fsReload s
  { s with light := { s.light with
      mult := getF s Reg.snkGlobal 16 8,
      latch := (List.range 24).foldl (fun v n =>
        vset v n { vget v n ⟨255, 0, false, false, 256⟩ with kcol := colourOf s n }) s.light.latch } }

/-! ### Diagnostics (R822 to R827) -/

/-- A step in progress ends without a sample (R822, R824); the waiting register writes are applied (R825). -/
def diagEnd (s : State) : State :=
  match s.light.step with
  | none => s
  | some n =>
    let d := vget s.light.diag n ⟨0, 0, false, .good⟩
    let s := s.light.waiting.foldl (fun s e => setReg s e.1 e.2) s
    { s with light := { s.light with
        step := none, sampled := false, lasted := 0, waiting := [], gapLeft := getF s Reg.snkGlobal 27 24 + 1,
        diag := vset s.light.diag n { d with noMeas := !s.light.sampled } } }

/-- The next channel of the sweep after the last one, cyclically (R822). -/
def diagNext (s : State) : Option Nat :=
  ((List.range 24).map (fun k => (s.light.lastCh + 1 + k) % 24)).find? (fun n =>
    getB s (Reg.snkCfg n) 31 && getB s (Reg.snkCfg n) 29)

/-- The sweep may step (R822). -/
def sweepRuns (s : State) : Bool :=
  getB s Reg.snkGlobal 31 && (s.power.mode == .run || s.power.mode == .holdover || s.power.mode == .workshop)

/-- DIAG_STEP_BEGIN (R823, R824): a step of the next channel, at the light tick just made. -/
def execDiagStepBegin (s : State) : Host.Outcome State Fault Refusal :=
  if !sweepRuns s || s.light.step.isSome || s.light.gapLeft != 0 then .next s
  else
    match diagNext s with
    | none => .next s
    | some n =>
      let l := vget s.light.latch n ⟨255, 0, false, false, 256⟩
      let t := { s with light := { s.light with lastCh := n, step := some n, sampled := false, lasted := 0 } }
      .next (if l.duty < 512 ∨ l.code = 0 then diagEnd t else t)

/-- The verdict on a sample (R826). -/
def diagJudge (s : State) (n v : Nat) : Verdict3 :=
  let ref := (vget s.light.diag n ⟨0, 0, false, .good⟩).ref
  let vf := getF s (Reg.snkCfg n) 15 8
  if v < getF s Reg.snkGlobal 7 0 then .opened
  else if ref ≠ 0 ∧ v > ref + (14 * vf + 5) / 10 then .shorted
  else .good

/-- REF after a good sample (R826). -/
def diagRef (ref v : Nat) : Nat :=
  if ref = 0 then v else (Int.ofNat ref + roundHalfUp (Int.ofNat v - Int.ofNat ref) 16).toNat

/-- DIAG_SAMPLE (R824, R826, R827): none says that the ADC was occupied at the sample point. -/
def execDiagSample (v : Option (BitVec 12)) (s : State) : Host.Outcome State Fault Refusal :=
  match s.light.step, v with
  | some n, some x =>
    if s.light.sampled then .next s
    else
      let d := vget s.light.diag n ⟨0, 0, false, .good⟩
      let j := diagJudge s n x.toNat
      let d' : SinkDiag := { last := x.toNat, ref := if j == .good then diagRef d.ref x.toNat else d.ref, noMeas := false, verdict := j }
      let s := { s with light := { s.light with sampled := true, diag := vset s.light.diag n d' } }
      let s := tallySample s 0x7 n false x.toNat
      let fault := fun (b : Nat) (code : FaultCode) =>
        pinSettle (logHw (raiseFlag s (Reg.snkDiag n) b 4) code (BitVec.ofNat 32 (x.toNat * 65536 + n)))
      .next (match j with
        | .good => s
        | .opened => if d.verdict == .opened then fault 31 .sinkOpen else s
        | .shorted => if d.verdict == .shorted then fault 30 .sinkShort else s)
  | _, _ => .next s

/-! ### The light tick (R812 to R815, R832) -/

/-- Code and duty of a sink during the hand-over glide, j frames after the first Lay frame (R832). -/
def glideLatch (s : State) (n j code duty : Nat) : Nat × Nat :=
  let top := max (vget s.light.startCode n 0) code
  let num := 255 * vget s.light.startLevel n 0 * (64 - j) + code * duty * j
  (top, if top = 0 then 0 else min ((2 * num + 64 * top) / (2 * 64 * top)) 0xFFFF)

/-- Sink n latches its light cell and settings. -/
def latchSink (s : State) (n : Nat) : State :=
  let code := getF s (Reg.snkCur n) 7 0
  let duty := dutyOf (sget zero s.mem.port n)
  let (c, d) := match s.light.handover with
    | some j => if j < 64 then glideLatch s n j code duty else (code, duty)
    | none => (code, duty)
  let l : SinkLatch :=
    { code := c, duty := d, en := getB s (Reg.snkCfg n) 31, slew := getB s (Reg.snkCfg n) 30, kcol := colourOf s n }
  { s with light := { s.light with latch := vset s.light.latch n l } }

/-- The sinks' side of a light tick: a step's progress, the settings in force, the latches, the QUIESCE fade. -/
def lightLatch (s : State) : State :=
  let s := { s with light := { s.light with gapLeft := s.light.gapLeft - 1, lasted := s.light.lasted + 1 } }
  let s := if s.light.step.isSome && (s.light.sampled || decide (s.light.lasted ≥ 2)) then diagEnd s else s
  let s := { s with light := { s.light with
    mult := getF s Reg.snkGlobal 16 8, f := s.light.fNext,
    fs := [0, 1, 2].foldl (fun v k => vset v k (getReg s (Reg.snkFs k))) s.light.fs,
    fade := if s.power.mode == .quiesce then min (s.light.fade + 1) 64 else s.light.fade } }
  if s.power.mode == .holdover then s
  else ((List.range 24).filter (fun n => s.light.step != some n)).foldl latchSink s

/-- A hand-over glide begins (R198, R199): from fail-safe drive where it holds the sink, else from the sink's output, which
stays until the first light tick of the glide moves it (R832). A sink in its measurement state keeps its values (R824). -/
def handoverBegin (s : State) : State :=
  let start := fun n =>
    let l := vget s.light.latch n ⟨255, 0, false, false, 256⟩
    if fsOwns s.power.mode && fsNames s n then (fsCode s n * 257, fsCode s n)
    else if (s.power.mode == .holdover || s.power.mode == .workshop) && l.en then
      ((2 * l.code * l.duty + 255) / 510, l.code)
    else (0, 0)
  let shown := fun (v : Vector SinkLatch 24) (n : Nat) =>
    if s.light.step == some n then v
    else
      let (level, c) := start n
      let code := getF s (Reg.snkCur n) 7 0
      let top := max c code
      vset v n { vget v n ⟨255, 0, false, false, 256⟩ with
        code := top, duty := if top = 0 then 0 else min ((2 * 255 * level + top) / (2 * top)) 0xFFFF, en := getB s (Reg.snkCfg n) 31 }
  { s with light := { s.light with
      handover := some 0,
      latch := (List.range 24).foldl shown s.light.latch,
      startLevel := (List.range 24).foldl (fun v n => vset v n (start n).1) s.light.startLevel,
      startCode := (List.range 24).foldl (fun v n => vset v n (start n).2) s.light.startCode } }

/-- The glide at a frame tick: it ends at the 64th (R198). -/
def handoverTick (s : State) : State :=
  match s.light.handover with
  | none => s
  | some j => { s with light := { s.light with handover := if j + 1 ≥ 64 then none else some (j + 1) } }

/-! ### Temperatures and IREF -/

/-- The die factor (R818), tj in 0.1 °C. -/
def dieFactor (tj : Int) (tstart : Nat) : Nat :=
  let t0 : Int := 10 * tstart
  if tj ≤ t0 then 256
  else if tj ≥ 1500 then 128
  else (roundHalfUp (256 * (1500 - t0) - 128 * (tj - t0)) (1500 - t0).toNat).toNat

/-- An NTC factor and its FAULT bit (R819). -/
def ntcFactor (cfg : Word) (r : Nat) : Nat × Bool :=
  let start := fld cfg 27 16
  let stop := fld cfg 11 0
  if !bit cfg 31 then (256, false)
  else if r ≤ 40 ∨ r ≥ 4000 ∨ start ≤ stop then (256, true)
  else if r ≥ start then (256, false)
  else if r ≤ stop then (128, false)
  else ((2 * (128 * (start - stop) + 128 * (r - stop)) + (start - stop)) / (2 * (start - stop)), false)

/-- The modes in which the ADC measures (R817). -/
def measures (m : Mode) : Bool := m == .run || m == .holdover || m == .workshop || m == .quiesce

/-- THERMAL_MEASURE (R817 to R821, R882, R112). -/
def execThermalMeasure (m : Thermal) (s : State) : Host.Outcome State Fault Refusal :=
  if s.power.mode == .off || s.power.factory then .next s
  else
    let full := measures s.power.mode
    let (n0, b0) := if full then ntcFactor (getReg s (Reg.snkNtc 0)) m.ntc0.toNat else (256, s.light.ntcBad0)
    let (n1, b1) := if full then ntcFactor (getReg s (Reg.snkNtc 1)) m.ntc1.toNat else (256, s.light.ntcBad1)
    let f := min (dieFactor m.tj (if full then getF s Reg.snkDerate 15 8 else 125)) (min n0 n1)
    let began := s.light.fNext == 256 && decide (f < 256)
    let s := { s with
      light := { s.light with
        fNext := f, f := if full then s.light.f else f, tj := m.tj, measured := true, ntcBad0 := b0, ntcBad1 := b1, ntcSeen := s.light.ntcSeen || full,
        dieRaw := if full then m.raw else s.light.dieRaw, ntc0 := if full then m.ntc0 else s.light.ntc0,
        ntc1 := if full then m.ntc1 else s.light.ntc1 },
      power := { s.power with hotFs := s.power.hotFs && decide (m.tj ≥ 1500) } }
    let s :=
      if began then
        sysEvent (logHw s .thermalDerate (BitVec.ofNat 32
          (((roundHalfUp m.tj 10) % 256).toNat + (2 * 100 * f + 256) / 512 * 256))) 5
      else s
    .next (pinSettle s)

/-- Full scale in units of 10 µA at a reference resistance (Table 2.8, R93, R94): 1200 V / R_IREF. Rounding it half up to
the unit of SNK_IREF.IFS is a DESIGN CHOICE: log entry 78. -/
def fullScale (ohms : Option Nat) : Nat :=
  match ohms with
  | none => 2000
  | some r => if r > 130000 then 2000 else if r < 15000 then 7500 else (240000000 + r) / (2 * r)

/-- IREF_CHECK (R92 to R95): none is an open pin. -/
def execIrefCheck (ohms : Option Nat) (s : State) : Host.Outcome State Fault Refusal :=
  if s.power.mode == .off || s.power.factory then .next s
  else
    let low := match ohms with
      | some r => decide (r < 15000)
      | none => false
    let high := match ohms with
      | some r => decide (r > 130000)
      | none => true
    let s := { s with light := { s.light with irefLow := low, irefHigh := high, ifs := fullScale ohms } }
    .next (if low || high then raiseFlag s Reg.snkIref 29 4 else s)

/-- FS_INPUT_CHANGE (R829): the deglitched levels of FS0 to FS2. -/
def execFsInputChange (levels : BitVec 3) (s : State) : Host.Outcome State Fault Refusal :=
  if s.power.mode == .off then .next s else .next { s with pins := { s.pins with fs := levels } }

end Sys2Proof.Machine
end

