-- ==== Sys2Proof/Machine/Modes.lean ====
section
/-! DEFINITION. The modes, restarts and mode requests (04_modes_and_bringup.md), sleep and wake (R241 to R259). -/

namespace Sys2Proof.Machine

/-! ### Reset values that the straps select (R875) -/

/-- AUD_A_CFG under a CFG1 code (Table 3.5, R804). -/
def cfg1PortA (c : Nat) : Word :=
  let slave := c == 8 || c == 9
  let tdm := [1, 2, 3, 5, 7, 9].contains c
  let slots := if c = 2 ∨ c = 3 then 2 else if tdm then 1 else 0
  let sense := [1, 2, 3, 5, 7].contains c
  BitVec.ofNat 32 (b2n (cfg1Amp c) * 2 ^ 31 + b2n slave * 2 ^ 30 + (if tdm then 2 else 0) * 2 ^ 28
    + (if c = 3 then 0 else 2) * 2 ^ 26 + slots * 2 ^ 20 + b2n sense * 2 ^ 19)

/-- The highest code a manager addresses (R139). -/
def highestCode (selw cfg3 : Nat) : Nat :=
  match selw with
  | 0 => 16 * cfg3 + 15
  | 1 => min (16 * cfg3 + 15) 63
  | 2 => min (16 * cfg3 + 15) 15
  | _ => 1

/-- The rope registers' reset values (Table 13.9, R674, R675). -/
def ropeStraps (s : State) : State :=
  let r := role s
  let mgr := isManagerRole r
  let c2 := codeInForce s 3
  let selw := if mgr then c2 / 4 else 3
  let cfg := b2n (r == .manager) * 2 ^ 31 + b2n (r == .standbyManager) * 2 ^ 30 + 2 ^ 27 + 5 * 2 ^ 16
    + (if mgr then highestCode selw (codeInForce s 4) else 0) * 256 + selw * 64 + b2n mgr * 8
  let s := setReg s Reg.ropCfg (BitVec.ofNat 32 cfg)
  let s := setReg s Reg.ropClk (BitVec.ofNat 32 (if mgr then 4 * 2 ^ (c2 % 4) else 4))
  setReg s Reg.ropNode (BitVec.ofNat 32 (if r == .worker then nodeIndex s % 256 else 0))

/-- Every reset value outside page 0x01 that the straps select. -/
def strapRegs (s : State) : State :=
  let c1 := codeInForce s 2
  let s := setReg s Reg.audACfg (cfg1PortA c1)
  let s := setReg s Reg.audBCfg (BitVec.ofNat 32 (0x48000000 + b2n (cfg1PortB c1) * 2 ^ 31))
  let s := setReg s Reg.audASlots (if bit (cfg1PortA c1) 19 then 0x00FF00FF else 0x000000FF)
  sinkStraps (ropeStraps s)

/-- The reset values on page 0x01 that the role selects (Tables 5.2, 5.14). -/
def roleRegs (s : State) : State :=
  let w := role s == .worker
  let s := setReg s Reg.clkSrcOrder (if w then 0x14 else 0x01)
  setReg s Reg.pwrWakeEn (BitVec.ofNat 32
    (b2n (role s == .manager) * 2 ^ 24 + (if w then 0x1E else 0) * 2 ^ 17 + (if w then 0x43 else 0x3F)))

/-! ### Leaving a mode -/

/-- SYS_MODE_REQ.RESULT (Table 4.4). -/
def setResult (s : State) (r : Nat) : State := setF s Reg.sysModeReq 11 8 r

/-- A pending mode request, or the one that QUIESCE is carrying out, is displaced (R156, Table 4.4). -/
def dropRequest (s : State) : State :=
  if s.power.pendingReq.isSome || (s.power.mode == .quiesce && getF s Reg.sysModeReq 11 8 == 1) then
    setResult { s with power := { s.power with pendingReq := none } } 5
  else s

/-- A mode change: the hand-over glide and a diagnostics step end (R200, R822), STEP reads 0 outside WORKSHOP. -/
def changeMode (s : State) (m : Mode) : State :=
  let sweeps := m == .run || m == .holdover || m == .workshop
  let s := if sweeps then s else diagEnd s
  let s := { s with
    light := { s.light with handover := none }, lay := { s.lay with stepping := false },
    clock := { s.clock with holdDue := false } }
  enterMode (if m == .workshop then s else setF s Reg.layCtrl 11 0 0) m

/-- What a frame tick would bring is not due in another mode. -/
def clearDue (s : State) : State :=
  { s with clock := { s.clock with holdDue := false, lightDue := false, quietDue := false, startDue := false } }

/-- The frame of a ROM Lay ends here: its END has issued in its slot, if that slot has passed (R70). -/
def romEnded (s : State) : State :=
  match s.lay.romEnd with
  | some e => { s with lay := { s.lay with romEnd := none, endedAt := if romRuns s then s.lay.endedAt else some e } }
  | none => s

/-- The Lay, Slack and the watchdog stop. -/
def stopPrograms (s0 : State) : State :=
  let s := romEnded s0
  { s with lay := { s.lay with inLay := false, slackOn := false }, cleat := { s.cleat with wdogOn := false } }

/-- Reasons in SYS_REASON (Table 4.11). -/
def setLastFail (s : State) (r : Reason) : State := setF s Reg.sysReason 15 8 (reasonNo r)
def setCause (s : State) (c : Nat) : State := setF s Reg.sysReason 19 16 c

/-- SYS_START_COUNT and the start window clear (R185). -/
def clearStarts (s : State) : State :=
  { setReg s Reg.sysStartCount 0 with power := { s.power with windowOpen := false } }

/-- STR_OVERRIDE clears, and a rate written and not taken up is discarded (R20, R152). -/
def dropOverride (s : State) : State :=
  let s := setReg s Reg.strOverride 0
  { s with power := { s.power with override := 0 }, clock := { s.clock with rateNext := none } }

/-- Entry to LIMP (R188, R189): nothing but the responders runs, so jobs of the Reel engine, of Slack and of the ports end. -/
def limpEnter (s : State) (r : Reason) (immediate : Bool) : State :=
  let s := if immediate then setLastFail s r else s
  let s := setF s Reg.sysReason 7 0 (reasonNo r)
  let s := fsReload (dropOverride (dropRequest (stopPrograms (clearDue s))))
  let s := { s with
    power := { s.power with toWorkshop := false, hotFs := r == .thermalShutdown, heldWake := none },
    clock := { s.clock with romRate := none, rateDue := none }, rom := RomLay.init,
    xp := { s.xp with holder := none, direct := false, recovering := false, slackReads := [] },
    reel := s.reel.map (fun c => { c with st := .idle, fill := none, leave := false, sending := false }),
    twb := { s.twb with job := none, slack := none }, rope := { s.rope with wire := [], svc := Rope.init.svc },
    hal := { s.hal with phase := .wait, wake := .idle, wakeDue := false, keep := [] },
    audio := { s.audio with
      out := Vector.replicate 16 0, fade := .full, muting := false, mutes := Vector.replicate 16 .steady } }
  changeMode s .limp

/-! ### Restarts -/

/-- Registers that a warm restart keeps (R178, R870). -/
def warmKeeps (r : Nat) : Bool :=
  (decide (64 ≤ r) && decide (r < 192)) || r == Reg.sysFrame || r == Reg.sysReason || r == Reg.sysStartCount
    || r == Reg.cltLadderCfg || r == Reg.cltLogHead || (decide (256 ≤ r) && decide (r < 320))
    || (decide (64 * 0x14 ≤ r) && decide (r < 64 * 0x15))

/-- Registers that DORMANT and STANDBY keep through the wake (R243, R870). -/
def sleepKeeps (r : Nat) : Bool :=
  r == Reg.clkSrcOrder || r == Reg.clkPllCfg || r == Reg.clkMonCfg || r == Reg.pwrWakeEn || r == Reg.pwrWakeSrc
    || r == Reg.pwrDormantCfg || r == Reg.pwrVmon || r == Reg.sysReason || r == Reg.strOverride
    || r == Reg.cltLadderCfg || r == Reg.cltLogHead || (decide (256 ≤ r) && decide (r < 320))
    || (decide (64 * 0x14 ≤ r) && decide (r < 64 * 0x15))

/-- Everything that a warm restart or a wake returns to reset (R178, R243): the units and all registers but those kept. -/
def resetUnits (s : State) (keep : Nat → Bool) : State :=
  { s with
    regs := s.regs.filter (fun e => keep e.1), tickPend := s.tickPend.filter (fun e => e.1 == Reg.sysFrame),
    lay := Lay.init, mem := { Mem.init with ext := s.mem.ext, epoch := s.mem.epoch }, map := MapUnit.init,
    cleat := { Cleat.init with
      queue := s.cleat.queue, kInForce := s.cleat.kInForce, hInForce := s.cleat.hInForce, pinLow := s.cleat.pinLow,
      pinHold := s.cleat.pinHold, layPend := s.cleat.layPend },
    events := EventTable.init, splice := SpliceUnit.init, loader := Loader.init, xp := Xport.init,
    reel := Vector.replicate 8 Channel.init, rope := Rope.init, twb := Twb.init, hal := Hal.init, audio := Audio.init,
    light := Light.init, whip := Vector.replicate 4 Whip.init, rom := RomLay.init }

/-- RAISE is entered at a step (R165). -/
def raiseAt (s : State) (st : RaiseStep) (workshop : Bool) : State :=
  let s := { s with power := { s.power with raise := st, toWorkshop := workshop, pendingReq := none, heldWake := none } }
  let s := changeMode (clearDue s) .raise
  if st == .reference then chooseReference s else s

/-- The strap reason that sends RAISE to LIMP (R122, R126, R137). -/
def strapReason (s : State) : Option Reason :=
  match strapFault s with
  | .ok => none
  | .ambiguous => some .strapAmbiguous
  | .reserved => some .strapReserved

/-- A warm restart (R178, R165): from step 6 with the PLL running, else from step 3; STR_OVERRIDE and a written rate
are taken up (R20, R151). -/
def warmRestart (s : State) (cause : Nat) (workshop : Bool) : State :=
  let displaced := s.power.pendingReq.isSome
  let taken := s.clock.rateNext
  let s := resetUnits s warmKeeps
  let s := { s with power := { s.power with override := getReg s Reg.strOverride } }
  let s := { s with clock := { s.clock with
    rate := taken.getD (cfg1Rate (codeInForce s 2)), rateNext := none, romRate := taken, rateDue := none } }
  let s := setCause (strapRegs s) cause
  let s := if displaced then setResult s 5 else s
  let s := raiseAt s (if pllRuns s then .attempt else .reference) workshop
  match strapReason s with
  | some r => if workshop then s else limpEnter s r true
  | none => s

/-- A failed start (R181, R183, R184, R452). -/
def failedStart (s : State) (r : Reason) (cause : Nat) : State :=
  let s := setLastFail s r
  let failed := getF s Reg.sysStartCount 3 0
  let opens := failed == 0
  let s := setF s Reg.sysStartCount 3 0 (satInc failed 15)
  let s := { s with power := { s.power with
    startLimit := getF s Reg.cltLadderCfg 15 12, windowLen := getF s Reg.cltLadderCfg 11 4,
    windowOpen := s.power.windowOpen || opens, windowStart := if opens then s.clock.time else s.power.windowStart } }
  if s.power.windowOpen && decide (getF s Reg.sysStartCount 3 0 ≥ s.power.startLimit) then limpEnter s r false
  else warmRestart s cause false

/-- A cold start (R177, R115): cause 1 by the power-on reset, 2 by RESET#. Waiting commands, external memories and the
supplies stay what they are. That it ends the 25 % limit of R112 too, although Tj may still be at or above 150 °C, is a
DESIGN CHOICE: log entry 80. -/
def coldStart (s : State) (b : Boot) (cause : Nat) : State :=
  let r := State.reset
  let s := { r with
    pending := s.pending, free := s.free, straps := decodeStraps b.straps,
    mem := { r.mem with ext := s.mem.ext, epoch := s.mem.epoch },
    power := { r.power with vddxMv := s.power.vddxMv, xpValid := cause == 2 && s.power.xpValid },
    pins := { s.pins with fs := b.fs } }
  let s := setReg s Reg.sysReason (BitVec.ofNat 32 (cause * 65536 + cause * 256))
  let s := { s with clock := { s.clock with rate := cfg1Rate (codeInForce s 2) } }
  let s := strapRegs (roleRegs s)
  match strapReason s with
  | some r => limpEnter s r true
  | none => s

/-! ### Sleep and wake -/

/-- RAISE by a wake or an exit from STANDBY (R243, R249 to R256): mask holds the recognised sources. -/
def wakeStart (s : State) (mask : Nat) : State :=
  let cause := if s.power.mode == .dormant then 3 else 4
  let s := { resetUnits s sleepKeeps with tickPend := [], clk := ClkUnit.init }
  let s := { s with clock := { s.clock with
    rate := cfg1Rate (codeInForce s 2), rateNext := none, romRate := none, slot := 0 } }
  let s := { strapRegs s with power := { s.power with windowOpen := false } }
  let s := setCause s cause
  let s :=
    if mask = 0 then s
    else
      let s := setF (countUp s Reg.pwrWakeSrc 31 24) Reg.pwrWakeSrc 7 0 mask
      let pull := Nat.land mask (2 * getF s Reg.pwrWakeEn 23 17) != 0
      let resume := getB s Reg.pwrWakeEn 24 && decide (mask / 2 % 128 ≠ 0)
      { s with power := { s.power with dueRequest := pull, dueResume := resume, wakeAt := some s.clock.time } }
  raiseAt s .reference false

/-- DORMANT or STANDBY is entered (R203, R241 to R243); a held wake starts RAISE at once (R204, R252). -/
def sleepEnter (s : State) (m : Mode) : State :=
  let held := s.power.heldWake
  let s := stopPrograms (clearDue s)
  let s := { s with
    clk := ClkUnit.init,
    power := { s.power with
      xrstLow := true, heldWake := none, pendingReq := none, wakeAt := none, toWorkshop := false, dueRequest := false,
      dueResume := false },
    clock := { s.clock with rateNext := none, romRate := none, rateDue := none },
    hal := { s.hal with phase := .wait, wake := .idle, wakeDue := false } }
  let s := if m == .dormant then fsReload (dropOverride (clearStarts s)) else s
  let s := changeMode s m
  match held with
  | some mask => wakeStart s mask
  | none => s

/-- Frames of 10 ms (R201). -/
def fadeFrames (s : State) : Nat := 10 * rateKhz s

/-- The factor on the output samples, as a fraction (R201, R801). -/
def fadeFactor (s : State) : Nat × Nat :=
  let n := fadeFrames s
  match s.audio.fade with
  | .full => (1, 1)
  | .down num den pos => (num * (n - pos), den * n)
  | .up num den pos => (num * n + (den - num) * min pos n, den * n)
  | .kept num den => (num, den)

/-- Entry to QUIESCE (R202, R259, R462): every slot-channel waits to be muted; a fade in progress stays where it is. -/
def quiesceEnter (s0 : State) (target : Mode) : State :=
  let s := setResult s0 1
  let s := { s with
    power := { s.power with sleepTarget := target, heldWake := none },
    cleat := { s.cleat with wdogOn := false }, audio := { s.audio with
      muting := true, mutes := Vector.replicate 16 (.wait 0x008000 0x800000 0 (zcFrames s)), fade := if s.audio.fade == .full then .full else .kept (fadeFactor s).1 (fadeFactor s).2 },
    light := { s.light with fade := 0 } }
  let s := setB s Reg.pwrWakeSrc 8 false
  changeMode (reelQuiesce s) .quiesce

/-- HOLDOVER is entered (R446, R447, R449, R201): the Lay stops, outputs hold and audio fades. -/
def holdEnter (s : State) : State :=
  let (num, den) := fadeFactor s
  let t := { s with
    audio := { s.audio with fade := .down num den 1 }, cleat := { s.cleat with holdStart := s.clock.time },
    lay := { s.lay with inLay := false } }
  changeMode (setB t Reg.cltTaint 1 true) .holdover

/-- The entry to HOLDOVER that the last frame tick brings (R446). -/
def holdCarry (s : State) : State := if s.clock.holdDue then holdEnter s else s

/-! ### Mode requests (R158 to R162, R190 to R194) -/

/-- The LIMP cause persists (R191). -/
def limpPersists (s : State) (target : Nat) : Bool :=
  s.power.vccLow || s.power.hotFs ||
    (target == 3 && match strapReason s with
      | some r => getF s Reg.sysReason 7 0 == reasonNo r
      | none => false)

/-- The budget check of R36 on the loaded image's header (R214). -/
def loadedFits (s : State) : Bool :=
  let b := s.loader.bytes
  decide (imgLmax b + imgWalk b + imgSlack b ≤ rateBudget (imgRate b))

def pendRequest (s : State) (m : Mode) : State := setResult { s with power := { s.power with pendingReq := some m } } 1

/-- A request for a target that is judged in the current mode (Table 4.5). -/
def takeRequest (s : State) (target : Nat) : State :=
  let refuse := setResult s 3
  match s.power.mode, target with
  | .run, 1 | .holdover, 1 | .workshop, 1 => quiesceEnter s .dormant
  | .run, 2 | .holdover, 2 | .workshop, 2 => quiesceEnter s .standby
  | .run, 7 | .holdover, 7 => pendRequest s .workshop
  | .holdover, 4 => pendRequest s .run
  | .workshop, 3 => setResult (warmRestart s 0xA false) 2
  | .workshop, 4 => if getB s Reg.sysStatus 8 && loadedFits s then pendRequest s .run else refuse
  | .standby, 1 => setResult (sleepEnter s .dormant) 2
  | .standby, 3 | .standby, 4 => setResult (wakeStart s 0) 2
  | .limp, 1 => if limpPersists s 1 then setResult s 4 else setResult (sleepEnter (clearStarts s) .dormant) 2
  | .limp, 3 => if limpPersists s 3 then setResult s 4 else setResult (warmRestart (clearStarts s) 9 false) 2
  | .limp, 7 => if limpPersists s 7 then setResult s 4 else setResult (warmRestart (clearStarts s) 9 true) 2
  | _, _ => refuse

/-- A keyed write of SYS_MODE_REQ (R158 to R160). -/
def modeRequest (s0 : State) (target : Nat) : State :=
  let s := holdCarry s0
  let s := setF s Reg.sysModeReq 3 0 target
  if s.power.pendingReq.isSome || s.power.mode == .quiesce then setResult s 5 else takeRequest s target

/-- SYS_RESET takes its key (R163, R164). -/
def sysResetWrite (s : State) : State :=
  match s.power.mode with
  | .run | .holdover | .workshop => warmRestart (setLastFail s .cmdReset) 5 false
  | _ => s

/-! ### Commands -/

/-- POWER_ON_RESET_RELEASE (R177, R75): with TEST high the device stays in factory test. -/
def execPowerOnResetRelease (b : Boot) (s : State) : Host.Outcome State Fault Refusal :=
  if b.test then
    let r := State.reset
    .next { r with pending := s.pending, free := s.free, mem := { r.mem with ext := s.mem.ext, epoch := s.mem.epoch },
                   power := { r.power with mode := .off, factory := true, vddxMv := s.power.vddxMv } }
  else .next (coldStart s b 1)

/-- POWER_LOSS (R84): the device is held in reset, without power to drive FAULT#; what the external memories hold is not
known after it. -/
def execPowerLoss (s : State) : Host.Outcome State Fault Refusal :=
  let r := State.reset
  .next (extForget { r with
    pending := s.pending, free := s.free, pins := s.pins, mem := { r.mem with ext := s.mem.ext, epoch := s.mem.epoch },
    power := { r.power with mode := .off, prev := s.power.mode, vddxMv := s.power.vddxMv },
    cleat := { r.cleat with pinLow := false, pinHold := false } })

/-- RESET_PIN_PULSE (R108, R177). -/
def execResetPinPulse (b : Boot) (s : State) : Host.Outcome State Fault Refusal :=
  if s.power.mode == .off then .next s else .next (coldStart s b 2)

/-- The modes that SUPPLY_LOW and THERMAL_SHUTDOWN end in LIMP (Table 4.3). -/
def limpable (m : Mode) : Bool :=
  match m with
  | .raise | .run | .holdover | .workshop | .quiesce => true
  | .off | .dormant | .standby | .limp => false

/-- SUPPLY_LOW (R85). -/
def execSupplyLow (s : State) : Host.Outcome State Fault Refusal :=
  if limpable s.power.mode then
    let s := setB { s with power := { s.power with vccLow := true } } Reg.pwrVmon 30 true
    .next (limpEnter s .supplyLow true)
  else .next s

/-- THERMAL_SHUTDOWN (R111, R112). -/
def execThermalShutdown (s : State) : Host.Outcome State Fault Refusal :=
  if limpable s.power.mode then .next (limpEnter s .thermalShutdown true) else .next s

/-- NO_REFERENCE (R154, Table 4.6 step 3). -/
def execNoReference (s : State) : Host.Outcome State Fault Refusal :=
  if s.power.mode == .raise && s.power.raise == .reference then .next (limpEnter s .noReference true) else .next s

/-- PLL_LOCK (R56, R165): the frame tick that the lock begins gives frame 0. That a PLL which locks on FSYNC follows it at
once, with no alignment (R237), is a DESIGN CHOICE: log entry 87. -/
def execPllLock (s : State) : Host.Outcome State Fault Refusal :=
  if s.power.mode == .raise && s.power.raise == .pll then
    let t := setReg s Reg.sysFrame 0
    .next { t with
      clk := { t.clk with locked := true, follow := t.clk.primary == 4 },
      clock := { t.clock with slot := 0, frameLen := budget t },
      power := { t.power with raise := .attempt } }
  else .next s

/-- PLL_NO_LOCK (R154, Table 4.6 step 4). -/
def execPllNoLock (s : State) : Host.Outcome State Fault Refusal :=
  if s.power.mode == .raise && s.power.raise == .pll then .next (limpEnter s .pllNoLock true) else .next s

/-- ROPE_NO_IMAGE (R170). -/
def execRopeNoImage (s : State) : Host.Outcome State Fault Refusal :=
  if s.power.mode == .raise && s.power.raise == .ropeWait then .next (failedStart s .ropeNoImage 6) else .next s

/-- START_WINDOW_CLOSE (R182). -/
def execStartWindowClose (s : State) : Host.Outcome State Fault Refusal :=
  if s.power.windowOpen then
    let t := { s with power := { s.power with windowOpen := false } }
    .next (if getF t Reg.sysStartCount 3 0 < t.power.startLimit then setF t Reg.sysStartCount 3 0 0 else t)
  else .next s

/-- HOLDOVER_TIMEOUT (R449). -/
def execHoldoverTimeout (s : State) : Host.Outcome State Fault Refusal :=
  if s.power.mode == .holdover then .next (failedStart s .holdoverTimeout 7) else .next s

/-- SLACK_WATCHDOG (R464, R157, R462). -/
def execSlackWatchdog (s : State) : Host.Outcome State Fault Refusal :=
  if s.cleat.wdogOn then .next (failedStart s .slackWatchdog 8) else .next s

/-- QUIESCE_COMPLETE (R203). -/
def quiesceLeave (s : State) : State :=
  if s.clock.quietDue then setResult (sleepEnter s s.power.sleepTarget) 2 else s

/-- QUIESCE_COMPLETE (R203). -/
def execQuiesceComplete (s : State) : Host.Outcome State Fault Refusal := .next (quiesceLeave s)

/-- A recognised wake source (R248 to R250): it wakes, or is held (R204). -/
def wakeSources (s : State) (srcs : Nat) : State :=
  let mask := Nat.land srcs (getF s Reg.pwrWakeEn 7 0)
  if mask = 0 then s
  else
    match s.power.mode with
    | .dormant | .standby => wakeStart s mask
    | .quiesce => { s with power := { s.power with heldWake := some (Nat.lor (s.power.heldWake.getD 0) mask) } }
    | _ => s

/-- WAKE (R249): the sources recognised from the first recognition until RAISE begins, one bit per source. -/
def execWake (srcs : BitVec 8) (s : State) : Host.Outcome State Fault Refusal := .next (wakeSources s srcs.toNat)

/-- WAKE_TIMER (R248): source 7, when the timer runs. -/
def execWakeTimer (s : State) : Host.Outcome State Fault Refusal :=
  match s.power.mode with
  | .dormant | .standby => if getF s Reg.pwrDormantCfg 15 0 = 0 then .next s else .next (wakeSources s 128)
  | _ => .next s

/-- A write of 1 to PWR_WAKE_EN.PULSE (R255): a resume. -/
def pulseWrite (s : State) : State :=
  match s.power.mode with
  | .off | .dormant | .standby => s
  | _ => setB { s with power := { s.power with wakeLow := true } } Reg.pwrWakeSrc 9 true

/-- The pulse that a wake calls for (R255 to R257). -/
def duePulse (s : State) : State :=
  if s.power.dueRequest || s.power.dueResume then
    let t := if s.power.dueRequest then setB s Reg.pwrWakeSrc 8 true else s
    let t := if s.power.dueResume then setB t Reg.pwrWakeSrc 9 true else t
    { t with power := { t.power with wakeLow := true, dueRequest := false, dueResume := false } }
  else s

/-- WAKE_PULSE_END (R255). -/
def execWakePulseEnd (s : State) : Host.Outcome State Fault Refusal :=
  .next { s with power := { s.power with wakeLow := false } }

end Sys2Proof.Machine
end

