-- ==== Sys2Proof/Machine/RopePort.lean ====
section
/-! DEFINITION. The rope port as master: buffers, transfers through ROP_XFER, the wire, take-over and mode fault
(13_rope.md, R623 to R641, R666 to R672). -/

namespace Sys2Proof.Machine

/-! ### Buffers (R635) -/

def ropWord (s : State) (rx : Bool) (i : Nat) : Word := sget zero (if rx then s.rope.rx else s.rope.tx) i

def setRopWord (s : State) (rx : Bool) (i : Nat) (w : Word) : State :=
  { s with rope := if rx then { s.rope with rx := sput zero s.rope.rx i w } else { s.rope with tx := sput zero s.rope.tx i w } }

def bufIsRx (s : State) : Bool := getB s Reg.ropBufptr 8
def bufIndex (s : State) : Nat := getF s Reg.ropBufptr 6 0

/-- An access to ROP_BUFDATA moves INDEX on. -/
def bufNext (s : State) : State := setF s Reg.ropBufptr 6 0 ((bufIndex s + 1) % 128)

def bufWrite (s : State) (w : Word) : State := bufNext (setRopWord s (bufIsRx s) (bufIndex s) w)

/-! ### The wire (R640) -/

/-- A W1C flag of ROP_STATUS is set, with the LINK event (Table 19.5). -/
def ropFlag (s : State) (n : Nat) : State := raiseFlag s Reg.ropStatus n 7

/-- ROP_STAMP records an RSS# fall (R662). -/
def ropStamp (s : State) (frame : Nat) (slot : Nat) : State :=
  setReg s Reg.ropStamp (BitVec.ofNat 32 (frame % 256 * 2 ^ 24 + slot % 16384))

def jobCode : Job → Byte
  | .feed _ code _ => code
  | .xfer code _ _ _ _ _ _ => code
  | .service ask _ => ask.code

def jobSends : Job → List Word
  | .feed _ _ cells => cells.map (fun c => BitVec.ofNat 32 (c.toNat * 256))
  | .xfer _ _ _ _ _ _ out => out
  | .service _ out => out

/-- The transfer at the head of the wire starts: RSS# falls. -/
def wireStart (s : State) : State :=
  match s.rope.wire with
  | [] => s
  | j :: _ =>
    let s := ropStamp s (frameNo s).toNat s.clock.slot
    { s with rope := { s.rope with lastCode := jobCode j, fallTime := s.clock.time, sent := jobSends j } }

def isXfer : Job → Bool
  | .feed _ _ _ | .service _ _ => false
  | .xfer _ _ _ _ _ _ _ => true

/-- A transfer started through ROP_XFER waits or is in progress. -/
def xferBusy (s : State) : Bool := s.rope.wire.any isXfer

/-! ### ROP_XFER (R636 to R638) -/

/-- The largest code that the select width carries; without a select field, codes 0 and 1 (R629, R139). -/
def topCode (s : State) : Nat :=
  match getF s Reg.ropCfg 7 6 with
  | 0 => 255
  | 1 => 63
  | 2 => 15
  | _ => 1

/-- The profile of a select code (R633). -/
def codeProfile (s : State) (code : Nat) : Word :=
  getReg s (Reg.ropProf (getF s (Reg.ropSelmap (code / 8)) (4 * (code % 8) + 3) (4 * (code % 8))))

/-- A protocol profile is valid (R632). -/
def profileOk (p : Word) : Bool :=
  bit p 31 || (fld p 23 19 == 31 && (fld p 11 0 + 1) % 32 == 0 && decide (fld p 30 29 ≤ 1))

/-- The header that a protocol transfer sends: transmit word 0 under SEQ_AUTO and CRC_AUTO (Table 13.4). -/
def xferHeader (s : State) : Word :=
  let h := ropWord s false 0
  let h := if getB s Reg.ropXfer 29 then putFld h 15 8 (getF s Reg.ropSeq 7 0) else h
  if getB s Reg.ropXfer 28 then putBit h 0 true else h

/-- The CRC word over words (R643). -/
def crcWord (ws : List Word) : Word := BitVec.ofNat 32 (crc32 (ws.flatMap bytesOf))

/-- The words of a protocol transfer (R638). -/
def xferOut (s : State) (n : Nat) : List Word :=
  let h := xferHeader s
  let len := fld h 23 16
  let msg := (List.range (len + 1)).map (fun i => if i = 0 then h else ropWord s false i)
  (List.range n).map (fun i =>
    if i = 0 then h
    else if i = len + 1 ∧ getB s Reg.ropXfer 28 = true then crcWord msg
    else ropWord s false i)

/-- A write of GO is refused (R637). -/
def xferRefused (s : State) : Bool :=
  let code := getF s Reg.ropXfer 23 16
  let p := codeProfile s code
  let n := getF s Reg.ropXfer 7 0
  let h := xferHeader s
  xferBusy s || !getB s Reg.ropCfg 31 || decide (code > topCode s) || !profileOk p
    || (!bit p 31 && (decide (n * 32 > fld p 11 0 + 1) || decide (n < 1 + fld h 23 16 + b2n (bit h 0))))

/-- The transfer that GO starts. -/
def xferJob (s : State) : Job :=
  let code := getF s Reg.ropXfer 23 16
  let p := codeProfile s code
  if bit p 31 then
    let w := fld p 23 19 + 1
    let n := (fld p 11 0 + 1 + w - 1) / w
    .xfer (BitVec.ofNat 8 code) true n w (decide (fld p 30 29 ≤ 1)) false
      ((List.range n).map (fun i => ropWord s false (i % 128)))
  else
    let n := getF s Reg.ropXfer 7 0
    .xfer (BitVec.ofNat 8 code) false n 32 true (getB s Reg.ropXfer 27) (xferOut s n)

/-- A write of ROP_XFER with GO at 1, its other fields written. -/
def xferGo (s : State) : State :=
  if xferRefused s then ropFlag s 9
  else
    let j := xferJob s
    let raw := bit (codeProfile s (getF s Reg.ropXfer 23 16)) 31
    let idle := s.rope.wire.isEmpty
    let s := if getB s Reg.ropXfer 29 && !raw then setF s Reg.ropSeq 7 0 ((getF s Reg.ropSeq 7 0 + 1) % 256) else s
    let s := { s with rope := { s.rope with wire := s.rope.wire ++ [j] } }
    if idle then wireStart s else s

/-! ### The end of a transfer (R638, R639, R653) -/

/-- Received words stored: the top bits of each, the words taken modulo the buffer. -/
def storeRx (s : State) (words width : Nat) (rx : List Word) : State :=
  (List.range words).foldl (fun s i =>
    let w := rx.getD i 0
    setRopWord s true (i % 128) (BitVec.ofNat 32 (w.toNat / 2 ^ (32 - width) * 2 ^ (32 - width)))) s

/-- The CRC word of a reply, whose words are given, fails, or was not clocked (R653). -/
def replyCrcBad (word : Nat → Word) (words : Nat) : Bool :=
  let l := fld (word 0) 31 24
  decide (l + 2 > words) ||
    decide (word (l + 1) ≠ BitVec.ofNat 32 (crc32 ((List.range (l + 1)).flatMap (fun i => bytesOf (word i)))))

def rxCrcBad (s : State) (words : Nat) : Bool := replyCrcBad (ropWord s true) words

/-- Rope reply latency (QTY 0x8 of Table 18.6): the reply that word 0 echoes, then this transfer's own request. -/
def replyLatency (s : State) (code : Byte) (w : Word) (out : List Word) : State :=
  let echoed := s.rope.asked.find? (fun a => a.code == code && a.seq == byteOf w 1)
  let answered := fld w 23 16 != 2
  let s := match echoed with
    | some a =>
      if answered then
        let us := (s.rope.fallTime - a.time) * 1000 / clocksPerMs
        tallySample { s with rope := { s.rope with asked := s.rope.asked.filter (· != a) } } 0x8 code.toNat true
          (min us 65535)
      else s
    | none => s
  let own : Asked := ⟨code, byteOf (out.headD 0) 1, s.clock.time⟩
  { s with rope := { s.rope with asked := s.rope.asked.filter (fun a => !(a.code == own.code && a.seq == own.seq)) ++ [own] } }

/-! ### Mastering (R666 to R669) -/

/-- Take-over (R667). -/
def takeOver (s : State) : State :=
  let s := ropFlag (setB s Reg.ropCfg 31 true) 13
  if s.clk.primary = 4 then changePrimary s 1 else s

/-- Feeds in the wire are skipped (R618, R669). -/
def dropFeeds (s : State) (wire : List Job) : State :=
  wire.foldl (fun s j => match j with
    | .feed ch _ _ => feedSkip (setChan s ch { chan s ch with sending := false }) ch
    | .xfer _ _ _ _ _ _ _ | .service _ _ => s) s

/-- ROPE_MODE_FAULT (R668, R669). -/
def execRopeModeFault (s : State) : Host.Outcome State Fault Refusal :=
  if getB s Reg.ropCfg 31 && pinModes s.power.mode then
    let s := logHw s .ropeModeFault (BitVec.ofNat 32 s.rope.lastCode.toNat)
    let s := setF s Reg.ropFault 31 16 (0x11 * 256 + s.rope.lastCode.toNat)
    let s := ropFlag (setB (setB s Reg.ropCfg 31 false) Reg.ropCfg 30 false) 7
    .next (dropFeeds { s with rope := { s.rope with wire := [] } } s.rope.wire)
  else .next s

/-- ROP_STATUS as it reads (Table 13.10): MASTERING. -/
def ropStatusWord (s : State) : Word :=
  putBit (getReg s Reg.ropStatus) 15 (getB s Reg.ropCfg 31 && pinModes s.power.mode)

end Sys2Proof.Machine
end

