-- ==== Sys2Proof/Machine/TwbPort.lean ====
section
/-! DEFINITION. The two-wire bus port as controller, and its buffer (14_two_wire_bus.md, R708 to R719). -/

namespace Sys2Proof.Machine

/-- A W1C flag of TWB_STATUS is set, with the LINK event (Table 19.5). -/
def twbFlag (s : State) (n : Nat) : State := raiseFlag s Reg.twbStatus n 7

/-! ### The 32-byte buffer (R710) -/

def cbufByte (s : State) (i : Nat) : Byte := sget zero s.twb.cbuf (i % 32)

def setCbufByte (s : State) (i : Nat) (b : Byte) : State :=
  { s with twb := { s.twb with cbuf := sput zero s.twb.cbuf (i % 32) b } }

def cbufIndex (s : State) : Nat := getF s Reg.twbCbuf 13 8

/-- A store or read moves INDEX on. -/
def cbufNext (s : State) : State := setF s Reg.twbCbuf 13 8 ((cbufIndex s + 1) % 32)

/-- A write of TWB_CBUF: SETIX sets INDEX, else DATA is stored. -/
def cbufWrite (s : State) (w : Word) : State :=
  if bit w 15 then setF s Reg.twbCbuf 13 8 (fld w 13 8)
  else cbufNext (setCbufByte s (cbufIndex s) (byteOf w 0))

/-- TWB_CBUF as it reads. -/
def cbufWord (s : State) : Word := putFld (getReg s Reg.twbCbuf) 7 0 (cbufByte s (cbufIndex s)).toNat

/-! ### Transfers -/

/-- CRC-8 of R685: polynomial 0x07, initial value 0, no reflection, no final XOR. -/
def crc8Bits (c : Nat) : Nat → Nat
  | 0 => c
  | n + 1 => crc8Bits (if c ≥ 128 then Nat.xor (c * 2 % 256) 0x07 else c * 2) n

def crc8 (bs : List Byte) : Nat := bs.foldl (fun c b => crc8Bits (Nat.xor c b.toNat) 8) 0

/-- A write of GO (R711), its fields written: the transfer they describe waits for the bus. -/
def twbGo (s : State) : State :=
  if s.twb.job.isSome || !getB s Reg.twbCfg 29 then s
  else { s with twb := { s.twb with job := some {
    addr := BitVec.ofNat 7 (getF s Reg.twbCtrl 22 16), wlen := getF s Reg.twbCtrl 5 0, rlen := getF s Reg.twbCtrl 13 8,
    pec := getB s Reg.twbCtrl 28 && getB s Reg.twbCfg 28, tries := 0, script := false } } }

/-- The controller's transfer ends with RESULT r; a step of the TWBI script that fails ends the script (R719). -/
def twbFinish (s : State) (r : Nat) : State :=
  let script := match s.twb.job with
    | some j => j.script
    | none => false
  let s := { s with twb := { s.twb with job := none, result := BitVec.ofNat 4 r } }
  let s := postEvent (setB s Reg.twbCtrl 29 true) 20 (fun _ => BitVec.ofNat 24 r)
  if script && r != 0 then
    twbFlag { s with loader := { s.loader with twbi := [], twbiOn := false } } 9
  else s

/-- A flag of TWB_STATUS that a TWBI step does not set (R719). -/
def ctrlFlag (s : State) (n : Nat) : State :=
  match s.twb.job with
  | some j => if j.script then s else twbFlag s n
  | none => twbFlag s n

/-- TWB_CTRL as it reads (Table 14.6): BUSY and RESULT. -/
def twbCtrlWord (s : State) : Word :=
  putFld (putBit (getReg s Reg.twbCtrl) 30 s.twb.job.isSome) 27 24 s.twb.result.toNat

/-- TWB_STATUS as it reads (Table 14.7): SDA_WAIT, and BUS_BUSY while a transfer of the controller is on the bus. -/
def twbStatusWord (s : State) : Word :=
  putBit (putBit (getReg s Reg.twbStatus) 2 s.twb.sdaWait) 1 (s.twb.job.isSome && !s.twb.sdaWait)

/-- TWB_ADDR (R682, Table 3.3). -/
def twbAddrWord (s : State) : Word :=
  if !msAmbiguous s && [1, 3, 5, 8, 10].contains (msCode s) then 0x0000013C else 0x00000038

/-- The bytes that PEC covers (R685, R709): the write phase, then the repeated start and the read phase. -/
def pecBytes (s : State) (j : TwbJob) (data : List Byte) : List Byte :=
  let a := j.addr.toNat * 2
  let w := BitVec.ofNat 8 a :: (List.range j.wlen).map (cbufByte s)
  let r := BitVec.ofNat 8 (a + 1) :: data
  if j.wlen = 0 ∧ j.rlen ≠ 0 then r else if j.rlen = 0 then w else w ++ r

/-- TWB_TRANSFER_DONE (R708, R709, R713): the read bytes fill the buffer; PEC is checked after a read. -/
def execTwbTransferDone (e : TwbEnd) (s : State) : Host.Outcome State Fault Refusal :=
  match s.twb.job with
  | none => .next s
  | some j =>
    if e.nack then .next (twbFinish s 2)
    else
      let data := e.data.toList.take j.rlen
      let bad := j.pec && j.rlen != 0 && crc8 (pecBytes s j data) != e.pec.toNat
      let s := (List.range j.rlen).foldl (fun s i => setCbufByte s i (vget e.data i 0)) s
      .next (if bad then twbFinish (ctrlFlag s 4) 6 else twbFinish s 0)

/-- A try is lost: the transfer is tried again up to RETRY times, then ends with RESULT r (R713, R714). -/
def twbRetry (s : State) (j : TwbJob) (r : Nat) : State :=
  if j.tries < getF s Reg.twbCfg 27 26 then { s with twb := { s.twb with job := some { j with tries := j.tries + 1 } } }
  else twbFinish s r

/-- TWB_ADDRESS_RETRY (R713). -/
def execTwbAddressRetry (s : State) : Host.Outcome State Fault Refusal :=
  match s.twb.job with
  | none => .next s
  | some j => .next (twbRetry s j 1)

/-- ARBITRATION_LOST (R714). -/
def execArbitrationLost (s : State) : Host.Outcome State Fault Refusal :=
  match s.twb.job with
  | none => .next s
  | some j => .next (twbRetry (ctrlFlag s 8) j 3)

/-- TWB_CONTROLLER_SCL_TIMEOUT (R715, Table 14.5). -/
def execTwbControllerSclTimeout (s : State) : Host.Outcome State Fault Refusal :=
  match s.twb.job with
  | none => .next s
  | some _ =>
    if getB s Reg.twbTimeout 0 then .next (twbFinish (ctrlFlag (logHw s .twbSclLow 1) 5) 4) else .next s

/-- BUS_RECOVERY (R716, R717): only the first recovery of a stuck bus is logged. -/
def execBusRecovery (s : State) : Host.Outcome State Fault Refusal :=
  match s.twb.job with
  | none => .next s
  | some _ =>
    if !getB s Reg.twbTimeout 1 then .next s
    else
      let first := s.twb.stuckAt.isNone
      let t := if first then logHw s .twbSdaLow 1 else s
      let t := ctrlFlag t 6
      .next { t with twb := { t.twb with
        sdaWait := true, stuckAt := if first then some t.clock.time else t.twb.stuckAt } }

/-- SDA_WAIT_CLEAR (R717). -/
def execSdaWaitClear (s : State) : Host.Outcome State Fault Refusal :=
  .next { s with twb := { s.twb with sdaWait := false, stuckAt := none } }

/-- BUS_STUCK (R717): the waiting transfer ends. -/
def execBusStuck (s : State) : Host.Outcome State Fault Refusal :=
  if s.twb.sdaWait && s.twb.job.isSome then .next (twbFinish s 5) else .next s

end Sys2Proof.Machine
end

