-- ==== Sys2Proof/Machine/HalPort.lean ====
section
/-! DEFINITION. What the Halyard port's registers show and do (15_halyard_port.md): FIFOs, flags and counts, a waiting
HAL_CFG write, a wake-up signal asked for. -/

namespace Sys2Proof.Machine

/-- HAL_CFG.MODE in force. -/
def halMode (s : State) : Nat := getF s Reg.halCfg 1 0

/-- A W1C flag of HAL_STATUS is set, with the LINK event (Table 19.5). -/
def halFlag (s : State) (n : Nat) : State := raiseFlag s Reg.halStatus n 7

/-- An error flag and its count in HAL_ERRCNT (R760). -/
def halError (s : State) (n : Nat) : State :=
  let lo := if n = 8 then 0 else if n = 9 then 8 else if n = 10 then 16 else 24
  halFlag (countUp s Reg.halErrcnt (lo + 7) lo) n

/-- The counts that clear with the flags written 1 (R760). -/
def halCountsClear (s : State) (v : Word) : State :=
  let s := if bit v 8 then setF s Reg.halErrcnt 7 0 0 else s
  let s := if bit v 9 then setF s Reg.halErrcnt 15 8 0 else s
  let s := if bit v 10 then setF s Reg.halErrcnt 23 16 0 else s
  if bit v 11 || bit v 12 || bit v 13 || bit v 14 then setF s Reg.halErrcnt 31 24 0 else s

/-! ### HAL_BUF (R733, R734) -/

/-- HAL_BUF as it reads. -/
def halBufWord (s : State) : Word :=
  if halMode s = 1 then
    match s.hal.rx with
    | x :: _ => BitVec.ofNat 32 (2 ^ 31 + x.toNat)
    | [] => 0
  else 0

/-- A read of HAL_BUF removes the oldest received byte. -/
def halBufTake (s : State) : State :=
  if halMode s = 1 then { s with hal := { s.hal with rx := s.hal.rx.drop 1 } } else s

/-- A write of HAL_BUF: an idle transmitter takes the byte at once. -/
def halBufWrite (s : State) (v : Word) : State :=
  if halMode s ≠ 1 then s
  else if s.hal.shift.isNone then
    { s with hal := { s.hal with shift := some (byteOf v 0), txEmpty := false } }
  else if s.hal.tx.length ≥ 16 then s
  else { s with hal := { s.hal with tx := s.hal.tx ++ [byteOf v 0], txEmpty := false } }

/-! ### Settings, status, wake -/

/-- HAL_CFG takes a value, or waits for the character in progress (R722). -/
def halCfgWrite (s : State) (w : Word) : State :=
  if s.hal.shift.isSome then { s with hal := { s.hal with cfgPend := some w } } else setReg s Reg.halCfg w

/-- HAL_STATUS as it reads (Table 15.7). -/
def halStatusWord (s : State) : Word :=
  putFld (putFld (getReg s Reg.halStatus) 31 24 s.hal.lastPid.toNat) 5 0
    (b2n (!s.hal.keep.isEmpty) * 32 + b2n s.hal.respErr * 16 + b2n s.hal.trigB * 8 + b2n s.hal.trigA * 4
      + b2n s.hal.txEmpty * 2 + b2n (halMode s == 1 && !s.hal.rx.isEmpty))

/-- HAL_LIN_CFG as it reads (Table 15.5). -/
def halLinCfgWord (s : State) : Word :=
  putBit (putFld (getReg s Reg.halLinCfg) 21 16 (s.hal.table.length - 1)) 9 s.hal.romProf

/-- A wake-up signal is asked for (R757): it starts by LIN_WAKE_SEND. -/
def halWakeAsk (s : State) : State :=
  if pinModes s.power.mode && s.hal.wake == .idle then { s with hal := { s.hal with wakeDue := true } } else s

end Sys2Proof.Machine
end

