-- ==== Sys2Proof/Machine/AudioPort.lean ====
section
/-! DEFINITION. Audio port settings and what the audio and converter registers show (16_audio_ports.md). -/

namespace Sys2Proof.Machine

/-! ### Settings (Table 16.10) -/

def audEn (w : Word) : Bool := bit w 31
def audSlave (w : Word) : Bool := bit w 30
def audSlots (w : Word) : Nat := if fld w 21 20 = 0 then 2 else if fld w 21 20 = 1 then 4 else 8
def audWidth (w : Word) : Nat := if fld w 27 26 = 0 then 16 else if fld w 27 26 = 1 then 24 else 32
def audTdm (w : Word) : Bool := fld w 29 28 == 2

/-- An illegal combination (R780). -/
def audIllegal (w : Word) (b : Nat) (portA : Bool) : Bool :=
  let per := audSlots w * audWidth w
  (!audTdm w && audSlots w != 2)
    || (portA && !audSlave w
        && (audWidth w == 24 || b % per != 0 || decide (b / per < 8) || decide (b / per > 256)))

/-- A port with settings w takes a frame sync as its frame's start (R763): in TDM it is high for at least one bit clock and
at most half the frame. -/
def syncTaken (w : Word) (y : SyncIn) : Bool :=
  !audTdm w || (decide (1 ≤ y.high) && decide (2 * y.high ≤ y.length))

/-- The port sees the starts of its frames: rising edges of a frame sync that it takes. -/
def syncSeen (w : Word) (y : Option SyncIn) : Bool := (y.map (syncTaken w)).getD false

def aCfg (s : State) : Word := getReg s Reg.audACfg
def bCfg (s : State) : Word := getReg s Reg.audBCfg

/-- Port A runs by its registers; Port B runs by its registers (R766, R775, R780). -/
def aOn (s : State) : Bool := audEn (aCfg s) && !audIllegal (aCfg s) (budget s) true
def bOn (s : State) : Bool := audEn (bCfg s) && !audIllegal (bCfg s) (budget s) false

/-- BDIV of AUD_A_CFG (R766, R804). -/
def aBdiv (s : State) : Nat :=
  if aOn s && !audSlave (aCfg s) then budget s / (audSlots (aCfg s) * audWidth (aCfg s)) else 0

/-- Port A's master clocks run in this mode (Table 16.9). -/
def portClocks (s : State) : Bool :=
  match s.power.mode with
  | .run | .holdover | .workshop | .quiesce => true
  | .raise => s.power.raise == .firstFrame || s.power.raise == .ropeWait
  | .limp => s.clk.locked
  | .off | .dormant | .standby => false

/-! ### Converters (Tables 16.5 to 16.8) -/

/-- Nominal rates of Table 16.7, in Hz. -/
def nomRate (c : Nat) : Nat :=
  [8000, 11025, 12000, 16000, 22050, 24000, 32000, 44100, 48000, 88200, 96000, 176400, 192000].getD c 48000

/-- fs in Hz. -/
def frameHz (s : State) : Nat := rateKhz s * 1000

def asrOf (s : State) (out : Bool) : Asr := if out then s.audio.asrOut else s.audio.asrIn

def asrStateNo : AsrState → Nat
  | .off => 0 | .noClock => 1 | .acquiring => 2 | .locked => 3

def asrNom (s : State) (out : Bool) : Nat := nomRate (if out then getF s Reg.asrRange 19 16 else getF s Reg.asrRange 3 0)

/-- The measured rate as a fraction (R794): ratio × fs, or fs / ratio. -/
def asrRate (s : State) (out : Bool) : Nat × Nat :=
  let r := (asrOf s out).ratio.toNat
  if out then (frameHz s * 2 ^ 28, r) else (r * frameHz s, 2 ^ 28)

/-- The deviation in 0.1 ppm, rounded half up and saturated (Table 16.8). -/
def asrDev (s : State) (out : Bool) : Int :=
  let (num, den) := asrRate s out
  let nom := asrNom s out
  if den = 0 then 0
  else
    let d := roundHalfUp ((Int.ofNat num - Int.ofNat (nom * den)) * 10000000) (nom * den)
    if d > 8388607 then 8388607 else if d < -8388607 then -8388607 else d

/-- IN_BAND and OUT_BAND (R794). -/
def asrBand (s : State) (out : Bool) : Bool :=
  let (num, den) := asrRate s out
  let nom := asrNom s out
  let band := if out then getF s Reg.asrRange 31 24 else getF s Reg.asrRange 15 8
  (asrOf s out).st == .locked
    && decide ((Int.ofNat num - Int.ofNat (nom * den)).natAbs * 100000 ≤ band * nom * den)

/-- ASR_RATIO_IN and ASR_RATIO_OUT as they read (R791). -/
def asrRatioWord (s : State) (out : Bool) : Word :=
  match (asrOf s out).st with
  | .acquiring | .locked => (asrOf s out).ratio
  | .off | .noClock => 0

/-- ASR_LOCK as it reads (Table 16.6). -/
def asrLockWord (s : State) : Word :=
  let w := putFld (getReg s Reg.asrLock) 31 16 (s.audio.asrOut.ms.toNat * 256 + s.audio.asrIn.ms.toNat)
  let w := putFld w 11 8 (b2n (asrBand s true) * 8 + b2n (asrBand s false) * 4 + asrStateNo s.audio.asrOut.st)
  putFld w 1 0 (asrStateNo s.audio.asrIn.st)

/-! ### Status (Table 16.11) -/

/-- A W1C flag of AUD_STATUS is set, with the AUDIO event (Table 19.5). -/
def audFlag (s : State) (n : Nat) : State := raiseFlag s Reg.audStatus n 6

/-- The HOLDOVER fade or the resume ramp is in progress. -/
def fading (s : State) : Bool :=
  match s.audio.fade with
  | .down num _ pos => decide (pos < fadeFrames s) && num != 0
  | .up _ _ _ => true
  | .full | .kept _ _ => false

/-- AUD_STATUS as it reads. -/
def audStatusWord (s : State) : Word :=
  let a := aOn s && (if audSlave (aCfg s) then s.audio.aEdges else portClocks s)
  let w := putFld (getReg s Reg.audStatus) 31 30
    (b2n (audIllegal (aCfg s) (budget s) true) * 2 + b2n (audIllegal (bCfg s) (budget s) false))
  putFld w 12 10 (b2n s.audio.bEdges * 4 + b2n a * 2 + b2n (fading s))

/-- The counts of AUD_COUNTS that clear with the flags written 1 (R809). -/
def audCountsClear (s : State) (v : Word) : State :=
  let s := if bit v 0 then setF s Reg.audCounts 7 0 0 else s
  let s := if bit v 1 then setF s Reg.audCounts 15 8 0 else s
  let s := if bit v 2 then setF s Reg.audCounts 23 16 0 else s
  if bit v 3 || bit v 4 then setF s Reg.audCounts 31 24 0 else s

/-- AUD_ZC_CFG (R807): waiting channels, then ramping channels. -/
def zcWord (s : State) : Word :=
  BitVec.ofNat 32 ((List.range 16).foldl (fun acc ch =>
    let waits := fun (p : GainPhase) => match p with
      | .wait _ _ _ _ | .due _ _ => true
      | .ramp _ _ _ | .steady => false
    let ramps := fun (p : GainPhase) => match p with
      | .ramp _ _ _ => true
      | .wait _ _ _ _ | .due _ _ | .steady => false
    let g := vget s.splice.gains ch .steady
    let m := vget s.audio.mutes ch .steady
    acc + 2 ^ ch * b2n (waits g || waits m) + 2 ^ (16 + ch) * b2n (ramps g || ramps m)) 0)

end Sys2Proof.Machine
end

