-- ==== Sys2Proof/Machine/Regs.lean ====
section
/-! DEFINITION. Reading and writing registers (19_register_index.md): what each register shows, the side effects of a
read, and every rule on a write (R8 to R12, R270, R873 to R887). -/

namespace Sys2Proof.Machine

/-- The registers that Tables 19.2 to 19.4 name, by page: first and last index of each group. -/
def pageRegs (page : Nat) : List (Nat × Nat) :=
  match page with
  | 0x00 => [(1, 15)] | 0x01 => [(1, 10)] | 0x02 => [(1, 8)] | 0x03 => [(1, 5)] | 0x04 => [(1, 63)]
  | 0x05 => [(1, 13)] | 0x06 => [(1, 7)] | 0x07 => [(1, 7)] | 0x08 => [(1, 49)] | 0x09 => [(1, 21)]
  | 0x0A => [(1, 11), (16, 23), (32, 63)] | 0x0B => [(1, 16)] | 0x0C => [(1, 6)] | 0x0D => [(1, 7)]
  | 0x0E => [(1, 8)] | 0x0F => [(1, 5)] | 0x10 => [(1, 6), (16, 39)] | 0x11 => [(1, 24), (32, 55)]
  | 0x12 => [(1, 4)] | 0x13 => [(1, 40)] | 0x14 => [(1, 32)] | 0x15 => [(1, 32)] | 0x16 => [(1, 32)]
  | 0x17 => [(1, 3)] | 0x18 => [(1, 3)]
  | _ => []

/-- A register stands at number r (R872, R875); PAGE is none of them. -/
def regExists (r : Nat) : Bool := (pageRegs (r / 64)).any (fun g => decide (g.1 ≤ r % 64) && decide (r % 64 ≤ g.2))

/-! ### Ownership of the Whipping units (Table 18.3) -/

/-- The loader owns WHP0: RAISE steps 8 and 9, and a rope or bulk-plane load (R566). -/
def loaderOwns (s : State) : Bool :=
  (s.power.mode == .raise && (s.power.raise == .ropeWait || s.power.raise == .firstFrame)) || s.loader.state == .receiving

/-- OWNER of a unit (R854). -/
def whipOwner (s : State) (u : Nat) : Nat :=
  match u with
  | 0 => if loaderOwns s then 1 else 0
  | 1 => if getB s Reg.ropCfg 27 then 2 else 0
  | 2 => if getB s Reg.twbCfg 28 then 3 else 0
  | _ => 0

/-- Every register of a unit returns to its reset value (R856). -/
def whipReset (s : State) (u : Nat) : State :=
  pinSettle ((List.range 10).foldl (fun s k => setReg s (Reg.whp u k) (regReset (Reg.whp u k))) (setWhip s u Whip.init))

/-! ### Reading -/

/-- The event that would be taken (R333): the lowest-numbered with PEND and EN at 1. -/
def nextEvent (s : State) : Option Nat :=
  (List.range 22).find? (fun e => getB s Reg.layEvtPend e && getB s Reg.layEvtEn e)

/-- LAY_EVT_TAKE as it reads. -/
def takeWord (s : State) : Word :=
  match nextEvent s with
  | some e => BitVec.ofNat 32 (2 ^ 31 + e * 2 ^ 24 + (vget s.events.data e 0).toNat)
  | none => 0

/-- Your Slack program takes an event (R333); its latency is a sample of QTY 0x2 (Table 18.6). -/
def eventTake (s : State) : State :=
  match nextEvent s with
  | some e =>
    let t := setB { s with events := { s.events with data := vset s.events.data e 0 } } Reg.layEvtPend e false
    tallySample t 0x2 0 false (min (s.clock.time - vget s.events.posted e 0) 0x7FFFFF)
  | none => s

/-- Core clocks in whole units of a millisecond divided by d (R17). -/
def inUnits (clocks d : Nat) : Nat := clocks * d / clocksPerMs

/-- Frames left of the running glide (Table 10.3, R505). -/
def glideLeft (s : State) : Nat := if s.splice.glide.isEmpty then 0 else s.splice.glideG - 1 - s.splice.glideK

/-- Pages 0x00 to 0x03 as they read. -/
def viewSys (s : State) (r : Nat) : Word :=
  let w := getReg s r
  if r = Reg.idStep then BitVec.ofNat 32 (Config.romVersion.toNat * 256 + 0xC0)
  else if r = Reg.idUniqueLo then Config.uniqueLo
  else if r = Reg.idUniqueHi then Config.uniqueHi
  else if r = Reg.sysMode then BitVec.ofNat 32 (modeNo s.power.prev * 256 + modeNo s.power.mode)
  else if r = Reg.sysStatus then
    putFld w 11 9 (b2n (fsDriving s != 0) * 4 + b2n s.light.handover.isSome * 2 + b2n s.power.windowOpen)
  else if r = Reg.sysStartCount then
    let left := s.power.windowLen * 1000 * clocksPerMs - (s.clock.time - s.power.windowStart)
    putFld w 31 16 (if s.power.windowOpen then left / (10 * clocksPerMs) else 0)
  else if r = Reg.sysFaultPin then putFld w 23 16 (pinActive s)
  else if r = Reg.clkStatus then clkStatusWord s
  else if r = Reg.clkPllCfg then (if s.clk.primary = 4 then putFld w 31 16 (multOf s 4) else w)
  else if r = Reg.clkMonDev then
    BitVec.ofNat 32 ((toBits 16 s.clk.avg).toNat * 65536 + (toBits 16 s.clk.last).toNat)
  else if r = Reg.clkNudge then putBit w 31 (fld w 15 0 != 0)
  else if r = Reg.pwrVmon then putBit w 31 s.power.vccLow
  else if Reg.strMs ≤ r ∧ r < Reg.strOverride then strapWord (vget s.straps.pins (r - Reg.strMs) Strap.init)
  else if r = Reg.cltWdog then
    let lim := fld w 9 0
    let spent := s.clock.time - s.cleat.wdogStart
    putFld w 23 14 (if s.cleat.wdogOn then min ((lim * clocksPerMs - spent) / clocksPerMs) 1023 else 0)
  else if r = Reg.cltLease then
    let age := match s.xp.holder with
      | some _ => min (inUnits (s.clock.time - s.xp.since) 1000) 65535
      | none => 0
    putFld (putBit (putFld w 31 28 (s.xp.holder.getD 15)) 27 s.xp.recovering) 15 0 age
  else w

/-- Pages 0x05 to 0x07 as they read. -/
def viewLay (s : State) (src : Source) (r : Nat) : Word :=
  let w := getReg s r
  if r = Reg.layFrameCfg then
    BitVec.ofNat 32 (budget s * 65536 + lightDiv s * 256
      + (s.clock.rateNext.getD (s.clock.rateDue.getD s.clock.rate)).toNat)
  else if r = Reg.layBank then
    BitVec.ofNat 32 (b2n s.splice.gainSel * 4 + b2n s.splice.progSel * 2 + b2n s.splice.tableSel)
  else if r = Reg.layCtrl then
    putFld w 28 16 (if s.power.mode == .workshop then s.lay.lay.pc.toNat else 0)
  else if r = Reg.layCoilCfg then putFld w 19 16 s.lay.slack.coil.length
  else if r = Reg.layStatus then putBit w 0 ((s.lay.inLay || romRuns s) && src != .slack)
  else if r = Reg.layEvtTake then takeWord s
  else if r = Reg.splCtrl then putFld w 31 28 (spliceOwnerNo s.splice.owner)
  else if r = Reg.splStageData then shadowWord s (stageSpace s) (stageIndex s)
  else if r = Reg.splGlide then putFld w 31 16 (glideLeft s)
  else if r = Reg.splStatus then
    putFld (putFld w 20 16 ((List.range 16).countP (channelBusy s))) 2 0
      (b2n (!s.splice.glide.isEmpty) * 4 + spliceStateNo s.splice.state)
  else if r = Reg.mapCacheCtrl then
    putFld (putFld w 31 30 (if s.map.pin.isSome then 3 else 0)) 29 29 (b2n s.map.pin.isSome)
  else if r = Reg.mapPinMask then BitVec.ofNat 32 (pinMask s.map)
  else w

/-- STATE of a channel (Table 12.12): a running channel that a busy device stops reads paused (R599). -/
def chStateNo (s : State) (ch : Nat) : Nat :=
  match (chan s ch).st with
  | .idle => 0
  | .running => if (chDevs s ch).any (devBusy s) then 4 else 1
  | .done => 2
  | .faulted => 3
  | .error => 5

/-- One bit per channel whose STATE has a number. -/
def chMask (s : State) (no : Nat) : Nat := (List.range 8).foldl (fun acc ch => acc + b2n (chStateNo s ch == no) * 2 ^ ch) 0

/-- REL_CHn_STATUS as it reads. -/
def chStatusWord (s : State) (ch : Nat) (w : Word) : Word :=
  let c := chan s ch
  let pos := if chKind s ch = 0 then c.pos % 4096 else if chKind s ch = 2 then 0 else min c.units 4095
  let w := putBit (putFld w 31 28 (chStateNo s ch)) 24 (c.buf && chKind s ch == 2)
  putFld w 23 0 (c.err.toNat * 65536 + (if chKind s ch = 0 then c.margin else 0) * 4096 + pos)

/-- The I/O mode of the X-port that a measurement of VDDX selects (R79, Table 12.8). -/
def ioMode (mv : Nat) : Nat := if mv < 500 then 0 else if mv < 2400 then 1 else 2

/-- Once VDDX has stood in Table 2.5, with VCC in its range, the X-port pins leave high impedance (R82). -/
def xpSettle (s : State) : State :=
  let v := s.power.vddxMv
  { s with power := { s.power with xpValid := s.power.xpValid
      || (decide (1700 ≤ v) && decide (v ≤ 1950)) || (decide (3000 ≤ v) && decide (v ≤ 3600)) } }

/-- Pages 0x08 to 0x0B as they read. -/
def viewPort (s : State) (r : Nat) : Word :=
  let w := getReg s r
  if r = Reg.relCtrl then putFld w 31 16 (chMask s 3 * 256 + chMask s 1)
  else if Reg.rel 0 0 ≤ r ∧ r ≤ Reg.rel 7 5 then
    let k := r - Reg.rel 0 0
    if k % 6 = 5 then chStatusWord s (k / 6) w else w
  else if r = Reg.xpStatus then
    let w := putFld w 31 12 (min (readClocks s 0) 255 * 4096 + min (readClocks s 1) 255 * 16 + s.xp.io * 4
      + b2n (!s.xp.cfgPend.isEmpty) * 2 + b2n s.xp.sfdpOk)
    putFld w 1 0 (b2n (readFits s 1) * 2 + b2n (readFits s 0))
  else if r = Reg.xpDcmd then putBit w 12 s.xp.direct
  else if r = Reg.ropSeq then
    match s.rope.last with
    | some l => putFld w 23 8 (l.result.toNat * 256 + l.seq.toNat)
    | none => w
  else if r = Reg.ropStatus then ropStatusWord s
  else if r = Reg.ropXfer then putBit w 30 (xferBusy s)
  else if r = Reg.ropBufdata then ropWord s (bufIsRx s) (bufIndex s)
  else w

/-- Pages 0x0C to 0x0F as they read. -/
def viewBus (s : State) (r : Nat) : Word :=
  let w := getReg s r
  if r = Reg.twbAddr then twbAddrWord s
  else if r = Reg.twbCtrl then twbCtrlWord s
  else if r = Reg.twbStatus then twbStatusWord s
  else if r = Reg.twbCbuf then cbufWord s
  else if r = Reg.halLinCfg then halLinCfgWord s
  else if r = Reg.halStatus then halStatusWord s
  else if r = Reg.halBuf then halBufWord s
  else if r = Reg.audACfg then putFld w 8 0 (aBdiv s)
  else if r = Reg.audZcCfg then zcWord s
  else if r = Reg.audStatus then audStatusWord s
  else if r = Reg.asrRatioIn then asrRatioWord s false
  else if r = Reg.asrRatioOut then asrRatioWord s true
  else if r = Reg.asrLock then asrLockWord s
  else w

/-- TJ of SNK_DERATE (R836): 0 until the first measurement. -/
def tjField (s : State) : Nat :=
  if !s.light.measured then 0
  else
    let t := roundHalfUp s.light.tj 10 + 64
    if t < 0 then 0 else if t > 255 then 255 else t.toNat

/-- SNK_n_DIAG as it reads (Table 17.3). -/
def diagWord (s : State) (n : Nat) (w : Word) : Word :=
  let d := vget s.light.diag n ⟨0, 0, false, .good⟩
  putFld w 29 0 (b2n (s.light.step == some n) * 2 ^ 29 + b2n d.noMeas * 2 ^ 28 + d.last * 65536 + d.ref)

/-- Pages 0x10 to 0x12 as they read. -/
def viewSink (s : State) (r : Nat) : Word :=
  let w := getReg s r
  if r = Reg.snkIref then
    putFld (putFld w 31 30 (b2n s.light.irefLow * 2 + b2n s.light.irefHigh)) 12 0 s.light.ifs
  else if r = Reg.snkDerate then putFld (putFld w 31 23 s.light.fNext) 7 0 (tjField s)
  else if r = Reg.snkNtc 0 then putBit w 30 s.light.ntcBad0
  else if r = Reg.snkNtc 1 then putBit w 30 s.light.ntcBad1
  else if Reg.snkCur 0 ≤ r ∧ r ≤ Reg.snkCur 23 then putFld w 27 16 (sinkDac s (r - Reg.snkCur 0))
  else if Reg.snkDiag 0 ≤ r ∧ r ≤ Reg.snkDiag 23 then diagWord s (r - Reg.snkDiag 0) w
  else if r = Reg.snkFsState then BitVec.ofNat 32 (fsDriving s * 16 + s.pins.fs.toNat)
  else w

/-- A Whipping register as it reads (R841, R845, Table 18.2). -/
def viewWhip (s : State) (u k : Nat) : Word :=
  let w := getReg s (Reg.whp u k)
  let x := whipUnit s u
  if k = 7 then x.result
  else if k = 9 then
    let q := x.queue.length
    let w := putFld (putFld w 31 28 (whipOwner s u)) 11 8 q
    putBit (putBit w 3 (q != 0 || x.check.isSome)) 1 x.matched
  else w

/-- A histogram register as it reads (R863). -/
def viewBins (s : State) (n j : Nat) : Word :=
  let m := vget s.tally.mons n Monitor.init
  BitVec.ofNat 32 ((vget m.bins (2 * j + 1) 0).toNat * 65536 + (vget m.bins (2 * j) 0).toNat)

/-- A monitor's register as it reads (Tables 18.7, 18.8). -/
def viewMon (s : State) (n k : Nat) : Word :=
  let m := vget s.tally.mons n Monitor.init
  match k with
  | 0 => getReg s (Reg.mon n 0)
  | 1 => BitVec.ofNat 32 (m.halves.toNat * 2 ^ 24 + m.min.toNat)
  | 2 => BitVec.ofNat 32 m.max.toNat
  | _ => m.count

/-- TMP_NTCk as it reads (Table 19.7). -/
def ntcWord (s : State) (v : BitVec 12) : Word :=
  if s.light.ntcSeen then
    BitVec.ofNat 32 (b2n (decide (v.toNat ≥ 4000)) * 2 ^ 31 + b2n (decide (v.toNat ≤ 40)) * 2 ^ 30 + v.toNat)
  else 0

/-- Pins of the select field that the rope port drives (R629, R883). -/
def selectPins (s : State) : Nat :=
  if getB s Reg.ropCfg 31 then
    match getF s Reg.ropCfg 7 6 with
    | 0 => 8
    | 1 => 6
    | 2 => 4
    | _ => 0
  else 0

/-- GPIO_IN as it reads (R883): the select field, driven outputs, and the levels at the other pins. -/
def gpioWord (s : State) : Word :=
  BitVec.ofNat 32 ((List.range 8).foldl (fun acc k =>
    acc + 2 ^ k * b2n (
      if k < selectPins s then s.rope.lastCode.getLsbD k
      else if getB s Reg.gpioDir k then getB s Reg.gpioOut k
      else s.pins.gpio.getLsbD k)) 0)

/-- Pages 0x13 to 0x18 as they read. -/
def viewUnits (s : State) (r : Nat) : Word :=
  let i := r % 64
  match r / 64 with
  | 0x13 => viewWhip s ((i - 1) / 10) ((i - 1) % 10)
  | 0x14 => viewMon s ((i - 1) / 4) ((i - 1) % 4)
  | 0x15 => viewBins s ((i - 1) / 8) ((i - 1) % 8)
  | 0x16 => viewBins s (4 + (i - 1) / 8) ((i - 1) % 8)
  | 0x17 =>
    if i = 1 then BitVec.ofNat 32 ((toBits 16 s.light.tj).toNat * 65536 + s.light.dieRaw.toNat)
    else ntcWord s (if i = 2 then s.light.ntc0 else s.light.ntc1)
  | _ => if r = Reg.gpioIn then gpioWord s else getReg s r

/-- Register r as source src reads it (R874, R875): 0 where no register stands. -/
def viewReg (s : State) (src : Source) (r : Nat) : Word :=
  if r % 64 = 0 then
    if r / 64 ≤ 0x18 then
      putFld (if r = Reg.log 0 0 then getReg s r else 0) 7 0 s.twb.page.toNat
    else 0
  else if !regExists r then 0
  else
    let p := r / 64
    if p ≤ 3 then viewSys s r
    else if p ≤ 7 then viewLay s src r
    else if p ≤ 0x0B then viewPort s r
    else if p ≤ 0x0F then viewBus s r
    else if p ≤ 0x12 then viewSink s r
    else viewUnits s r

/-- A read of SPL_STAGE_DATA over the bus or the rope finds its word's error (Table 6.2). -/
def stageReadEcc (s : State) : State :=
  let i := stageIndex s
  let look := fun (r : RamId) =>
    let (bad, s) := eccRead s r i
    if bad then logHw s .ramEcc (BitVec.ofNat 32 (ramNo r * 2 ^ 28 + i)) else s
  match stageRam s (stageSpace s) i with
  | some r => look r
  | none => s

/-- The side effect of one read (R887). -/
def readEffect (s : State) (src : Source) (r : Nat) : State :=
  if r = Reg.halBuf then halBufTake s
  else if r = Reg.ropBufdata then bufNext s
  else if r = Reg.twbCbuf then cbufNext s
  else if r = Reg.layEvtTake then (if src = .slack then eventTake s else s)
  else if r = Reg.splStageData then (if src = .twb ∨ src = .rope then stageReadEcc s else s)
  else s

/-! ### Writing: fields -/

/-- Whether a write with byte enables be reaches bits [hi:lo]. -/
def touched (be hi lo : Nat) : Bool := (List.range 4).any (fun k => nbit be k && decide (lo ≤ 8 * k + 7) && decide (8 * k ≤ hi))

/-- The written bytes over the bytes that keep their values (R291, R698). -/
def mergeBytes (be : Nat) (old v : Word) : Word :=
  (List.range 4).foldl (fun w k => if nbit be k then putFld w (8 * k + 7) (8 * k) (byteOf v k).toNat else w) old

/-- A value of a field is no reserved encoding (R10). -/
def fieldLegal : Legal → Nat → Bool
  | .any, _ => true
  | .range lo hi, v => decide (lo ≤ v) && decide (v ≤ hi)
  | .except vals, v => !vals.contains v

/-- One field of a write (R9 to R12): m holds the merged bytes, v the written ones. -/
def writeField (locked : Bool) (be : Nat) (m v w : Word) (f : Field) : Word :=
  if !touched be f.hi f.lo then w
  else
    match f.access with
    | .w1c clears =>
      if bit v f.lo then
        let w := putBit w f.lo false
        match clears with
        | some (hi, lo) => putFld w hi lo 0
        | none => w
      else w
    | .rwl => if locked || !fieldLegal f.legal (fld m f.hi f.lo) then w else putFld w f.hi f.lo (fld m f.hi f.lo)
    | .rw | .rws => if fieldLegal f.legal (fld m f.hi f.lo) then putFld w f.hi f.lo (fld m f.hi f.lo) else w

/-- Register r's value after a write over the value base. -/
def newWord (s : State) (r : Nat) (v : Word) (be : Nat) (base : Word) : Word :=
  match regRow r with
  | none => base
  | some row => row.fields.foldl (writeField (lockedMode s.power.mode) be (mergeBytes be base v) v) base

/-- The value that a write merges with: one that waits to take effect, else the one in force. -/
def baseWord (s : State) (r : Nat) : Word :=
  match (s.tickPend ++ s.xp.cfgPend ++ s.light.waiting).find? (fun e => e.1 == r) with
  | some e => e.2
  | none => if r = Reg.halCfg then s.hal.cfgPend.getD (getReg s r) else getReg s r

/-- A plain write. -/
def plainWrite (s : State) (r : Nat) (v : Word) (be : Nat) : State := setReg s r (newWord s r v be (getReg s r))

/-- A write that takes effect at the next frame tick. -/
def tickWrite (s : State) (r : Nat) (w : Word) : State := { s with tickPend := pendPut s.tickPend r w }

/-- Whether a write carries value x in its byte k. -/
def hasByte (v : Word) (be k x : Nat) : Bool := nbit be k && (byteOf v k).toNat == x

/-- Whether a write carries a 1 in bit n. -/
def hasBit (v : Word) (be n : Nat) : Bool := nbit be (n / 8) && bit v n

/-! ### Writing: pages 0x00 to 0x07 -/

/-- The watchdog restarts from LIMIT (R463). -/
def wdogRestart (s : State) : State := { s with cleat := { s.cleat with wdogStart := s.clock.time } }

/-- SYS_FAULT_PIN (R473): LATCHED does not clear while a source is active. -/
def faultPinWrite (s : State) (v : Word) (be : Nat) : State :=
  let was := getB s Reg.sysFaultPin 13
  let t := plainWrite s Reg.sysFaultPin v be
  if was && pinSourced t then setB t Reg.sysFaultPin 13 true else t

/-- SYS_OWNER with its key (R878). -/
def ownerWrite (s : State) (v : Word) (be : Nat) : State :=
  if hasByte v be 3 0xA6 then setF (plainWrite s Reg.sysOwner v be) Reg.sysOwner 15 8 0 else s

/-- CLT_LOG_HEAD (Table 9.7). -/
def logHeadWrite (s : State) (v : Word) (be : Nat) : State :=
  let s := plainWrite s Reg.cltLogHead v be
  let s := if hasBit v be 20 then { s with cleat := { s.cleat with layPend := false } } else s
  if hasBit v be 21 then
    setF ((List.range 16).foldl (fun s e => setB s (Reg.log e 0) 18 false) s) Reg.cltLogHead 3 0 0
  else s

/-- RATE of LAY_FRAME_CFG (R20). -/
def rateWrite (s : State) (v : Word) (be : Nat) : State :=
  let x := fld v 1 0
  if lockedMode s.power.mode || x = 3 || !nbit be 0 then s
  else { s with clock := { s.clock with rateNext := some (BitVec.ofNat 2 x) } }

/-- The budget check of R41 on S and W. -/
def budgetFits (s : State) (slack walk : Nat) : Bool := decide (s.loader.lmax + walk + slack ≤ budget s)

/-- A legal value that would break the budget is refused (R41). -/
def budgetRefuse (s : State) : State := setB s Reg.layStatus 2 true

/-- LAY_SLACK_MIN and LAY_WALK_ALLOW (R39 to R41). -/
def budgetWrite (s : State) (r : Nat) (v : Word) (be : Nat) : State :=
  let m := mergeBytes be (baseWord s r) v
  if r = Reg.laySlackMin then
    let x := fld m 12 0
    if x < 128 ∨ x > budget s / 2 then s
    else if budgetFits s x (fld (baseWord s Reg.layWalkAllow) 10 0) then tickWrite s r (BitVec.ofNat 32 x)
    else budgetRefuse s
  else
    let x := fld m 10 0
    if x > 1024 then s
    else if budgetFits s (fld (baseWord s Reg.laySlackMin) 12 0) x then tickWrite s r (BitVec.ofNat 32 x)
    else budgetRefuse s

/-- LAY_CTRL (R206, R213): STEP only in WORKSHOP; a write of 0 cancels; one by the instruction that
issues governs over its own decrement. -/
def layCtrlWrite (s : State) (src : Source) (v : Word) (be : Nat) : State :=
  let old := getF s Reg.layCtrl 11 0
  let t := plainWrite s Reg.layCtrl v be
  let mine := src == .lay && s.lay.stepping && touched be 11 0
  if s.power.mode != .workshop then setF t Reg.layCtrl 11 0 0
  else if getF t Reg.layCtrl 11 0 = 0 ∧ old ≠ 0 then
    let t := setB t Reg.layCtrl 12 true
    { t with lay := { t.lay with stepping := false, inLay := t.lay.inLay && !s.lay.stepping } }
  else { t with lay := { t.lay with stepWrote := t.lay.stepWrote || mine } }

/-- LAY_EVT_EN (R334): the count of an event whose EN bit changes begins anew. -/
def evtEnWrite (s : State) (v : Word) (be : Nat) : State :=
  let t := plainWrite s Reg.layEvtEn v be
  { t with events := { t.events with
      age := (List.range 22).foldl (fun a e =>
        if getB s Reg.layEvtEn e != getB t Reg.layEvtEn e then vset a e 0 else a) t.events.age } }

/-- SPL_CTRL (R489, R490, R494). -/
def splCtrlWrite (s : State) (src : Source) (v : Word) (be : Nat) : State × Bool :=
  if hasBit v be 8 then
    let (t, refused) := spliceCancel s src
    if refused then (t, true) else (plainWrite t Reg.splCtrl v be, false)
  else (spliceHeard (plainWrite s Reg.splCtrl v be) src, false)

/-- MAP_CACHE_CTRL (R312 to R317). -/
def cacheCtrlWrite (s : State) (v : Word) (be : Nat) : State :=
  if s.map.pin.isSome then s
  else
    let t := plainWrite s Reg.mapCacheCtrl v be
    let vpn := getF t Reg.mapCacheCtrl 11 0
    let op := if nbit be 3 then fld v 31 30 else 0
    match op with
    | 1 => { t with map := cacheDropUnpinned t.map }
    | 2 => { t with map := cacheDropPage t.map vpn }
    | 3 => pinStart t vpn
    | _ => t

/-- CLK_NUDGE (R66, R68): a write in the core clock of the frame tick stands over the tick's decrement, and the tick's frame
has its length from the count before it. -/
def nudgeWrite (s : State) (v : Word) (be : Nat) : State :=
  let t := plainWrite s Reg.clkNudge v be
  if s.clock.slot ≥ s.clock.frameLen then
    { t with clock := { t.clock with nudgeEdge := some (t.clock.nudgeEdge.getD (getF s Reg.clkNudge 15 0)) } }
  else t

/-- Writes of pages 0x00 to 0x03. -/
def writeSys (s : State) (src : Source) (r : Nat) (v : Word) (be : Nat) : State :=
  if r = Reg.sysModeReq then
    (if hasByte v be 3 0x4D then modeRequest s (fld (mergeBytes be (getReg s r) v) 3 0) else s)
  else if r = Reg.sysReset then (if hasByte v be 0 0x5A then sysResetWrite s else s)
  else if r = Reg.sysFrame then tickWrite s r (mergeBytes be (baseWord s r) v)
  else if r = Reg.sysFaultPin then faultPinWrite s v be
  else if r = Reg.sysOwner then ownerWrite s v be
  else if r = Reg.clkSrcOrder then
    (if lockedMode s.power.mode then s else orderWritten (plainWrite s r v be))
  else if r = Reg.clkNudge then (if s.clk.follow || s.clk.aligning then s else nudgeWrite s v be)
  else if r = Reg.pwrWakeEn then
    (if hasBit v be 31 then pulseWrite (plainWrite s r v be) else plainWrite s r v be)
  else if r = Reg.cltLogHead then logHeadWrite s v be
  else if r = Reg.cltWdog then
    let t := plainWrite s r v be
    if (src = .slack ∨ src = .rom) ∧ hasByte v be 3 0xA5 = true then wdogRestart t else t
  else plainWrite s r v be

/-- Writes of pages 0x04 to 0x07; true says that the splice unit refused the write (R700). -/
def writeLay (s : State) (src : Source) (r : Nat) (v : Word) (be : Nat) : State × Bool :=
  if r = Reg.layFrameCfg then (rateWrite s v be, false)
  else if r = Reg.laySlackMin ∨ r = Reg.layWalkAllow then (budgetWrite s r v be, false)
  else if r = Reg.layCtrl then (layCtrlWrite s src v be, false)
  else if r = Reg.layEvtEn then (evtEnWrite s v be, false)
  else if r = Reg.splCtrl then splCtrlWrite s src v be
  else if r = Reg.splStagePtr then stagePtrWrite s src (mergeBytes be (getReg s r) v)
  else if r = Reg.splStageData then
    stageDataWrite s src (mergeBytes be (shadowWord s (stageSpace s) (stageIndex s)) v)
  else if r = Reg.splCommitFrame then commitWrite s src (mergeBytes be (getReg s r) v)
  else if r = Reg.splGlide ∨ r = Reg.splZcTimeout ∨ r = Reg.splStatus then
    (spliceHeard (plainWrite s r v be) src, false)
  else if r = Reg.mapCacheCtrl then (cacheCtrlWrite s v be, false)
  else if r = Reg.layCoilCfg ∨ r = Reg.mapL1Base ∨ r = Reg.mapLineCtrl then
    (tickWrite s r (newWord s r v be (baseWord s r)), false)
  else (plainWrite s r v be, false)

/-! ### Writing: pages 0x08 to 0x0F -/

/-- REL_CHn_CFG (R602, R603, R606). A channel that is started again before the burst boundary at which it was to stop has
reached it (log entry 57). -/
def relCfgWrite (s : State) (ch : Nat) (v : Word) (be : Nat) : State :=
  let r := Reg.rel ch 0
  if getB s r 31 then
    if !nbit be 3 then s
    else if bit v 31 then chStart s ch
    else chStop (setB s r 31 false) ch
  else
    let starts := hasBit v be 31
    let s := if starts && (chan s ch).leave && s.xp.holder == some ch then burstEnd s ch else s
    let t := plainWrite s r v be
    if starts then chStart t ch else t

/-- Writes of page 0x08. -/
def writeRel (s : State) (r : Nat) (v : Word) (be : Nat) : State :=
  if r = Reg.relCtrl then plainWrite s r v be
  else
    let ch := (r - Reg.rel 0 0) / 6
    match (r - Reg.rel 0 0) % 6 with
    | 0 => relCfgWrite s ch v be
    | 5 => plainWrite s r v be
    | _ => if chEn s ch then s else plainWrite s r v be

/-- XP_DCMD (R597, R598). -/
def dcmdWrite (s : State) (v : Word) (be : Nat) : State :=
  if s.xp.direct then s
  else
    let t := plainWrite s Reg.xpDcmd v be
    if hasBit v be 15 then directGo t else t

/-- Writes of page 0x09. -/
def writeXp (s : State) (r : Nat) (v : Word) (be : Nat) : State :=
  if xpDelayed r then xpConfigWrite s r (newWord s r v be (baseWord s r))
  else if r = Reg.xpDcmd then dcmdWrite s v be
  else plainWrite s r v be

/-- ROP_CFG (R667, R856): a write of 1 to MASTER takes over; CRC at 0 frees WHP1. -/
def ropCfgWrite (s : State) (v : Word) (be : Nat) : State :=
  let t := plainWrite s Reg.ropCfg v be
  let t := if getB s Reg.ropCfg 27 && !getB t Reg.ropCfg 27 then whipReset t 1 else t
  if !getB s Reg.ropCfg 31 && getB t Reg.ropCfg 31 then takeOver t else t

/-- Writes of pages 0x0A and 0x0B. -/
def writeRope (s : State) (r : Nat) (v : Word) (be : Nat) : State :=
  if r = Reg.ropCfg then ropCfgWrite s v be
  else if r = Reg.ropXfer then
    let t := plainWrite s r v be
    if hasBit v be 31 then xferGo t else t
  else if r = Reg.ropBufdata then bufWrite s (mergeBytes be (ropWord s (bufIsRx s) (bufIndex s)) v)
  else plainWrite s r v be

/-- TWB_CBUF (R710): bytes not written count as they read, SETIX as 0. -/
def cbufRegWrite (s : State) (v : Word) (be : Nat) : State :=
  let m := mergeBytes be (cbufWord s) v
  cbufWrite s (putBit m 15 (hasBit v be 15))

/-- Writes of page 0x0C. -/
def writeTwb (s : State) (r : Nat) (v : Word) (be : Nat) : State :=
  if r = Reg.twbCfg then
    let t := plainWrite s r v be
    if getB s r 28 && !getB t r 28 then whipReset t 2 else t
  else if r = Reg.twbCtrl then
    let t := plainWrite s r v be
    if hasBit v be 31 then twbGo t else t
  else if r = Reg.twbCbuf then cbufRegWrite s v be
  else plainWrite s r v be

/-- Writes of page 0x0D. -/
def writeHal (s : State) (r : Nat) (v : Word) (be : Nat) : State :=
  if r = Reg.halCfg then halCfgWrite s (newWord s r v be (baseWord s r))
  else if r = Reg.halBuf then (if nbit be 0 then halBufWrite s v else s)
  else if r = Reg.halStatus then
    let t := plainWrite s r v be
    if nbit be 1 then halCountsClear t v else t
  else if r = Reg.halWake then
    let t := plainWrite s r v be
    if hasBit v be 31 then halWakeAsk t else t
  else plainWrite s r v be

/-- Writes of pages 0x0E and 0x0F. -/
def writeAud (s : State) (r : Nat) (v : Word) (be : Nat) : State :=
  if r = Reg.audACfg ∨ r = Reg.audBCfg then
    let w := newWord s r v be (baseWord s r)
    tickWrite s r (if r = Reg.audBCfg then putBit w 30 true else w)
  else if r = Reg.audAlign then
    (if fld (mergeBytes be (getReg s r) v) 12 0 ≤ budget s - 9 then plainWrite s r v be else s)
  else if r = Reg.audStatus then
    let t := plainWrite s r v be
    if nbit be 0 then audCountsClear t v else t
  else plainWrite s r v be

/-! ### Writing: pages 0x10 to 0x18 -/

/-- A sink register: while a sink is in its measurement state, writes of its CFG and CUR wait (R825). -/
def writeSink (s : State) (r : Nat) (v : Word) (be : Nat) : State :=
  match s.light.step with
  | some n =>
    if r = Reg.snkCfg n ∨ r = Reg.snkCur n then
      { s with light := { s.light with waiting := pendPut s.light.waiting r (newWord s r v be (baseWord s r)) } }
    else plainWrite s r v be
  | none => plainWrite s r v be

/-- START of a unit (R843, R840). -/
def whipStart (s : State) (u : Nat) : State :=
  let c := getReg s (Reg.whp u 0)
  let set : WhipSet :=
    { width := fld c 21 16, poly := getReg s (Reg.whp u 1), init := getReg s (Reg.whp u 2),
      xorout := getReg s (Reg.whp u 3), refin := bit c 8, refout := bit c 9 }
  let crc := set.init.toNat % 2 ^ set.width
  setWhip s u { whipUnit s u with
    set := set, crc := BitVec.ofNat 32 crc, result := BitVec.ofNat 32 (crcResult set crc), queue := [], poison := false,
    check := none }

/-- CHECK of a unit (R849, R852). -/
def whipCheck (s : State) (u : Nat) : State :=
  let w := whipUnit s u
  if w.queue.isEmpty then whipCompareNow s u else setWhip s u { w with check := some w.queue.length }

/-- Bytes fed to a unit (R841, R846): a feed that takes the queue beyond 8 is dropped whole. -/
def whipFeed (s : State) (u : Nat) (bs : List Byte) : State :=
  let w := whipUnit s u
  if w.queue.length + bs.length > 8 then setB (setWhip s u { w with poison := true }) (Reg.whp u 9) 4 true
  else setWhip s u { w with queue := w.queue ++ bs }

/-- FEED32 (R842): bits [31:24] of its last write stand in for ones that a write does not carry. -/
def whipFeed32 (s : State) (u : Nat) (v : Word) (be : Nat) : State :=
  let hi := if nbit be 3 then byteOf v 3 else (whipUnit s u).high
  let s := setWhip s u { whipUnit s u with high := hi }
  whipFeed s u [byteOf v 0, byteOf v 1, byteOf v 2, hi]

/-- Writes of page 0x13; an owned unit ignores them (R854). -/
def writeWhip (s : State) (r : Nat) (v : Word) (be : Nat) : State :=
  let u := (r - Reg.whp 0 0) / 10
  if whipOwner s u ≠ 0 then s
  else
    match (r - Reg.whp 0 0) % 10 with
    | 0 =>
      let t := plainWrite s r v be
      let t := if hasBit v be 0 then whipStart t u else t
      if hasBit v be 1 then whipCheck t u else t
    | 4 => whipFeed s u [byteOf v 0]
    | 5 => whipFeed s u [byteOf v 0, byteOf v 1]
    | 6 => whipFeed32 s u v be
    | _ => plainWrite s r v be

/-- ARG values of a quantity (R896, Table 18.6). -/
def argLegal (qty arg : Nat) : Bool :=
  match qty with
  | 0 | 8 => true
  | 4 => decide (arg ≤ 7)
  | 5 => decide (arg ≤ 1)
  | 6 => decide (arg ≤ 0x17) || (decide (0x20 ≤ arg) && decide (arg ≤ 0x27))
  | 7 => decide (arg ≤ 23)
  | _ => arg == 0

/-- MON_n_SRC (R866, R867, R896). -/
def writeMon (s : State) (r : Nat) (v : Word) (be : Nat) : State :=
  let n := (r - Reg.mon 0 0) / 4
  if (r - Reg.mon 0 0) % 4 ≠ 0 then s
  else
    let old := getReg s r
    let w := newWord s r v be old
    let w := if argLegal (fld w 29 26) (fld w 7 0) then w else putFld w 7 0 (fld old 7 0)
    let s := setReg s r w
    if hasBit v be 30 then
      { s with tally := { s.tally with
          mons := vset s.tally.mons n Monitor.init, due := s.tally.due.filter (fun x => x.unit != n) } }
    else s

/-! ### Writing: every register -/

/-- The bit of SYS_OWNER.DENY for a source (Table 19.6); ROM micro-routines have none (R880). -/
def denyBit : Source → Option Nat
  | .twb => some 0
  | .rope => some 1
  | .slack => some 2
  | .lay => some 3
  | .rom => none

/-- A register write is denied (R879). -/
def denied (s : State) (src : Source) (r : Nat) : Bool :=
  match denyBit src with
  | some k =>
    getB s Reg.sysOwner k && regExists r
      && !(r == Reg.sysOwner || r == Reg.sysModeReq || r == Reg.sysReset || r == Reg.cltWdog)
  | none => false

/-- A denied write counts and names its source (R879). -/
def denyWrite (s : State) (src : Source) : State :=
  match denyBit src with
  | some k => setF (countUp s Reg.sysOwner 15 8) Reg.sysOwner 23 20 (k + 1)
  | none => s

/-- Whether a source's register writes reach the registers in the current mode (Tables 4.8, 13.7, 14.4; R656). -/
def reaches (s : State) (src : Source) (r : Nat) : Bool :=
  if s.power.factory then false
  else
    match s.power.mode, src with
    | .off, _ | .dormant, _ => false
    | .run, _ | .holdover, _ | .workshop, _ | .quiesce, _ => true
    | .standby, .twb | .limp, .twb | .limp, .rope => r == Reg.sysModeReq
    | .raise, .rom | .limp, .rom => true
    | _, _ => false

/-- The effect of a write on its register. -/
def writeAt (s : State) (src : Source) (r : Nat) (v : Word) (be : Nat) : State × Bool :=
  match r / 64 with
  | 0x00 | 0x01 | 0x02 | 0x03 => (writeSys s src r v be, false)
  | 0x05 | 0x06 | 0x07 => writeLay s src r v be
  | 0x08 => (writeRel s r v be, false)
  | 0x09 => (writeXp s r v be, false)
  | 0x0A | 0x0B => (writeRope s r v be, false)
  | 0x0C => (writeTwb s r v be, false)
  | 0x0D => (writeHal s r v be, false)
  | 0x0E | 0x0F => (writeAud s r v be, false)
  | 0x10 | 0x11 | 0x12 => (writeSink s r v be, false)
  | 0x13 => (writeWhip s r v be, false)
  | 0x14 => (writeMon s r v be, false)
  | 0x18 => (plainWrite s r v be, false)
  | _ => (s, false)

/-- A register write (R884): src writes v to register r in the bytes that be enables. True: the splice unit refused it
or it was denied (R700, R879). -/
def writeReg (src : Source) (r : Nat) (v : Word) (be : Nat) (s : State) : State × Bool :=
  if !regExists r || !reaches s src r then (s, false)
  else if denied s src r then (denyWrite s src, true)
  else
    let (t, refused) := writeAt s src r v be
    (pinSettle t, refused)

/-- A register write of all four bytes. -/
def regWrite (s : State) (src : Source) (r : Nat) (v : Word) : State := (writeReg src r v 0xF s).1

end Sys2Proof.Machine
end

