-- ==== Sys2Proof/Machine/Operands.lean ====
section
/-! DEFINITION. Operand forms of the Lay machine (Tables 8.3 to 8.6): decoding, the cell each form reaches, reading
and writing it (08_instruction_set.md, "Compact operands" to "Legal operands"; R339 for runs). -/

namespace Sys2Proof.Machine

/-- The context an instruction runs in. -/
def ctxOf (s : State) (lay : Bool) : Ctx := if lay then s.lay.lay else s.lay.slack
def setCtx (s : State) (lay : Bool) (c : Ctx) : State :=
  { s with lay := if lay then { s.lay with lay := c } else { s.lay with slack := c } }

/-- A decoded operand (Tables 8.3, 8.4). -/
inductive Opnd where
  | deck (n : Nat)
  | table (n : Nat)
  | ptr (space n pm k : Nat)
  | acc (n : Nat)
  | part (n : Nat) (p : Nat)
  | reg (code : Nat)
  | port (i : Nat)
  | imm (i : Int) (full : Bool)
  | tap (line d : Nat)
  | tapK (line k : Nat)
  | fid (line k : Nat)
  | win (k off : Nat)
  | bad
  deriving DecidableEq, Repr

/-- A pointer operand (R391 to R394): a reserved space or code, and a circular mode of P4 to P15, are illegal (R402). -/
def ptrOpnd (space n pm k : Nat) : Opnd :=
  if space = 3 ∨ pm = 7 ∨ ((pm = 4 ∨ pm = 5) ∧ n ≥ 4) then .bad else .ptr space n pm k

/-- A register operand (R400): reserved codes are illegal in every position. -/
def regOpnd (code : Nat) : Opnd := if code ≥ 0x1F then .bad else .reg code

/-- A compact operand (R388, Table 8.3). -/
def compact (c : BitVec 12) : Opnd :=
  let v := c.toNat
  match v / 512 with
  | 0 | 1 => .deck (v % 1024)
  | 2 => .table (v % 512)
  | 3 =>
    let n := v / 8 % 16
    ptrOpnd (v / 128 % 4) n (v % 8) (n % 4)
  | 4 =>
    if v / 256 % 2 = 0 then
      if v / 16 % 16 ≠ 0 then .bad
      else if v % 4 = 0 then .acc (v / 4 % 4) else .part (v / 4 % 4) (v % 4)
    else if v / 64 % 4 ≠ 0 then .bad else regOpnd (v % 64)
  | 5 => .port (v % 512)
  | 6 => .imm (signed 9 v) false
  | _ => .bad

/-- A full operand (R389, Table 8.4). -/
def fullOpnd (fm : BitVec 3) (fpl : BitVec 20) : Opnd :=
  let v := fpl.toNat
  match fm.toNat with
  | 0 => .deck (v % 4096)
  | 1 => .table (v % 8192)
  | 2 => .tap (v / 4096) (v % 4096)
  | 3 => .tapK (v / 4096) (v % 64)
  | 4 => .fid (v / 4096) (v % 64)
  | 5 => ptrOpnd (v / 2 ^ 18) (v / 2 ^ 14 % 16) (v / 2 ^ 11 % 8) (v / 2 ^ 9 % 4)
  | 6 => .win (v / 65536) (v % 65536)
  | _ => .imm (signed 20 v) true

/-- An operand after translation: where its cell is. An immediate carries its integer and its cell value (R398, R399). -/
inductive Loc where
  | imm (i : Int) (c : Cell)
  | deck (n : Nat)
  | table (n : Nat)
  | strand (cell : Nat)
  | ext (dev addr pack : Nat)
  | port (off : Nat)
  | line (n w : Nat)
  | winLow (r : Nat)
  | winHigh (r : Nat)
  | nothing
  | reg (code : Nat)
  | part (n p : Nat)
  | acc (n : Nat)
  | fid (x0 x1 : Loc) (frac : Nat)
  deriving DecidableEq, Repr

/-- Whether an access reads, writes, or does both. -/
inductive Use where
  | read | write | both
  deriving DecidableEq, Repr

def Use.reads : Use → Bool
  | .write => false
  | _ => true

def Use.writes : Use → Bool
  | .read => false
  | _ => true

/-! ### Pointers -/

def ctxP (c : Ctx) (n : Nat) : Nat := (vget c.p n 0).toNat
def ctxM (c : Ctx) (k : Nat) : Int := (vget c.m k 0).toInt

/-- The smallest m with 2^m ≥ len, for len up to 2^20 (R394). -/
def circBits (len : Nat) : Nat := ((List.range 21).find? (fun m => decide (2 ^ m ≥ len))).getD 20

/-- The address a circular step or lane reaches (R394). -/
def circAddr (c : Ctx) (n : Nat) (step : Int) : Nat :=
  let len := (vget c.l n 0).toNat + 1
  let p := ctxP c n
  let base := p - p % 2 ^ circBits len
  (base + ((Int.ofNat (p - base) + step) % Int.ofNat len).toNat) % 2 ^ 24

/-- Bits [23:0] in reverse order (R395). -/
def rev24 (v : Nat) : Nat := (List.range 24).foldl (fun acc i => acc + (v / 2 ^ i % 2) * 2 ^ (23 - i)) 0

/-- The new Pn of a post-modify code (R392, Table 8.5). -/
def postModify (c : Ctx) (n pm k : Nat) : Cell :=
  let p := Int.ofNat (ctxP c n)
  match pm with
  | 1 => toBits 24 (p + 1)
  | 2 => toBits 24 (p - 1)
  | 3 => toBits 24 (p + ctxM c k)
  | 4 => toBits 24 (circAddr c n 1)
  | 5 => toBits 24 (circAddr c n (ctxM c k))
  | 6 => toBits 24 (rev24 ((rev24 (ctxP c n) + rev24 (vget c.m k 0).toNat) % 2 ^ 24))
  | _ => toBits 24 p

/-- The post-modify of an operand, by pointer number (R392); an unchanged pointer is a post-modify like the
others, so that the last operand naming a pointer governs whatever its code (R396). -/
def postsOf (c : Ctx) : Opnd → List (Nat × Cell)
  | .ptr _ n pm k => [(n, postModify c n pm k)]
  | _ => []

/-- The address of lane k of a pointer operand (R339, R391): circular modes wrap in their buffer. -/
def ptrLane (c : Ctx) (n pm k : Nat) : Nat :=
  if (pm = 4 ∨ pm = 5) ∧ k ≠ 0 then circAddr c n k else (ctxP c n + k) % 2 ^ 24

/-! ### From operand to cell -/

/-- A strand address in the windows (R286, R287, Table 6.6). -/
def windowLoc (va : Nat) : Loc :=
  if va ≥ 0xFF8000 then .winHigh (va - 0xFF8000)
  else if va ≥ 0xFF0000 then .winLow (va - 0xFF0000)
  else
    let off := va - 0xFE0000
    if off ≥ 0x4000 ∧ off < 0x4400 then
      if off % 4 = 3 then .nothing else .line ((off - 0x4000) / 4) (off % 4)
    else if portCell off then .port off
    else .nothing

/-- A strand cell read by an instruction: a store of the slot before is forwarded, whatever the RAM still holds (R269). -/
def checkStrand (cell : Nat) : Run Unit := do
  if (← readSt).lay.store.map (·.1) = some cell then pure () else checkEcc .strand cell

/-- A read or write of a translated page (R294, R305, R306). -/
def pageLoc (lay : Bool) (use : Use) (p : Page) (va : Nat) : Run Loc := do
  match p with
  | .frame w n =>
    if use.writes && !w then stopWith .mapProtect va (some va)
    let cell := n * 4096 + va % 4096
    if use.reads then checkStrand cell
    return .strand cell
  | .reel ch =>
    if use.writes then stopWith .mapProtect va (some va)
    let s0 ← readSt
    if lay then modifySt (fun _ => reelTouch s0 ch va)
    let s ← readSt
    match reelCell s ch va with
    | some cell =>
      if use.reads then checkStrand cell
      return .strand cell
    | none => stopWith .reelStarved (ch * 2 ^ 24 + va) (some va)
  | .ext w dev pack page =>
    if use.writes && (lay || !w) then stopWith .mapProtect va (some va)
    let addr := page * 4096 + va % 4096 * pack
    let s ← readSt
    match extRefusal s dev addr pack with
    | some code =>
      let w ← get
      stopWith code (extDetail code dev w.level va) (some va)
    | none =>
      if use.reads then
        let w ← get
        if !w.pages.any (fun q => q == (dev, page)) then
          if lay && decide (w.st.map.allowance < 40) then stopWith .mapMissBudget va (some va)
          modify (fun w => { w with pages := (dev, page) :: w.pages })
          extRead lay dev (page * 4096) pack 12 va
      return .ext dev addr pack

/-- A read of SPL_STAGE_DATA by an instruction checks the shadow word (Table 6.2). -/
def checkStage : Run Unit := do
  let s ← readSt
  let i := stageIndex s
  match stageRam s (stageSpace s) i with
  | some r => checkEcc r i
  | none => pure ()

/-- A read of the high cell returns the bits that a read of the same register's low cell latched (R289). -/
def highLatched (s : State) (lay : Bool) (r : Nat) : Bool :=
  match (ctxOf s lay).rlatch with
  | some (q, _) => q == r
  | none => false

/-- A strand access by pointer or window: the windows are decoded directly (R286), anything below is translated. -/
def strandLoc (lay : Bool) (use : Use) (va : Nat) : Run Loc := do
  if va ≥ 0xFE0000 then
    let loc := windowLoc va
    match loc with
    | .line n w => if use.reads then checkEcc .line (4 * n + w)
    | .winLow r => if use.reads && r == Reg.splStageData then checkStage
    | .winHigh r =>
      let s ← readSt
      if use.reads && r == Reg.splStageData && !highLatched s lay r then checkStage
    | _ => pure ()
    return loc
  else
    let p ← translate lay va
    pageLoc lay use p va

/-- A line tap (R277, R280): each tap cell reads the descriptor's three cells, so that every lane and both taps of a fid
read them again and count their corrections (R271): DESIGN CHOICE, log entry 88. The descriptor is read, then the strand access is translated. -/
def tapLoc (lay : Bool) (use : Use) (line d : Nat) : Run Loc := do
  checkEcc .line (4 * line)
  checkEcc .line (4 * line + 1)
  checkEcc .line (4 * line + 2)
  let s ← readSt
  let va := tapAddr s line d
  if va ≥ 0xFE0000 then stopWith .mapInvalid (walkDetail 0 va) (some va)
  let p ← translate lay va
  pageLoc lay use p va

/-- Tap cell TAPk (R266). -/
def tapCell (k : Nat) : Run Cell := do
  checkEcc .deck (0x0F00 + k)
  return sget zero (← readSt).mem.deck (0x0F00 + k)

/-- The cell value of an immediate (R398). -/
def immCell (int full : Bool) (i : Int) : Cell :=
  toBits 24 (if int then i else if full then i * 16 else i * 2 ^ 15)

/-- Lane k of an operand, translated and checked in the order of R437. -/
def locOf (lay : Bool) (c : Ctx) (use : Use) (o : Opnd) (k : Nat) : Run Loc := do
  match o with
  | .deck n => if use.reads then checkEcc .deck (n + k)
               return .deck (n + k)
  | .table n => let s ← readSt
                if use.reads then checkEcc (tableRam s) (n + k)
                return .table (n + k)
  | .ptr space n pm _ =>
    let a := ptrLane c n pm k
    if space = 0 then
      if use.reads then checkEcc .deck (a % 4096)
      return .deck (a % 4096)
    else if space = 1 then
      let s ← readSt
      if use.reads then checkEcc (tableRam s) (a % 8192)
      return .table (a % 8192)
    else strandLoc lay use a
  | .acc n => return .acc n
  | .part n p => return .part n p
  | .reg code => return .reg code
  | .port i => strandLoc lay use (0xFE0000 + i + k)
  | .imm i full => return .imm i (immCell (c.mode.getLsbD 0) full i)
  | .tap line d => tapLoc lay use line (d + k)
  | .tapK line t =>
    let x ← tapCell t
    tapLoc lay use line (cfld x 19 0 + k)
  | .fid line t =>
    let x ← tapCell t
    let d := cfld x 23 10
    let x0 ← tapLoc lay use line d
    let x1 ← tapLoc lay use line (d + 1)
    return .fid x0 x1 (cfld x 9 0)
  | .win p off => strandLoc lay use ((ctxP c p + off + k) % 2 ^ 24)
  | .bad => return .nothing

/-! ### Reading -/

/-- The modifiers in force for one instruction (R404). -/
structure Mods where
  lanes : Nat
  xs    : Bool
  half  : Bool
  sat   : Bool
  trk   : Bool
  int   : Bool
  deriving DecidableEq, Repr

/-- What STA would store (R348, R349): the cell, V, and whether it saturated. -/
def staConv (a : Acc) (m : Mods) : Cell × Bool × Bool :=
  if m.int then
    let v := a.toInt
    let out := decide (v > 8388607) || decide (v < -8388608)
    if out && m.sat then (if v > 0 then 0x7FFFFF else 0x800000, true, true) else (toBits 24 v, out, false)
  else
    let v := a.toInt + (if m.half then 2 ^ 23 else 0)
    let out := decide (v ≥ 2 ^ 47) || decide (v < -(2 ^ 47))
    if out && m.sat then (if v > 0 then 0x7FFFFF else 0x800000, true, true) else (toBits 24 (v / 2 ^ 24), out, false)

/-- An accumulator part read as a cell (Table 7.4). -/
def readPart (a : Acc) (p : Nat) : Cell :=
  match p with
  | 1 => toBits 24 (a.toNat / 2 ^ 24)
  | 2 => toBits 24 a.toNat
  | _ => toBits 24 (signed 8 (a.toNat / 2 ^ 48))

/-- Iterations left of Hitch level i, 0 the outermost (Table 8.6). -/
def hitchLeft (c : Ctx) (i : Nat) : Nat := ((c.hitch.reverse[i]?).map (·.left)).getD 0

/-- A register read as a cell (R400, Table 8.6). -/
def readCtxReg (c : Ctx) (code : Nat) : Cell :=
  if code < 0x10 then vget c.p code 0
  else if code < 0x14 then vget c.m (code - 0x10) 0
  else if code < 0x18 then BitVec.ofNat 24 (vget c.l (code - 0x14) 0).toNat
  else if code = 0x18 then BitVec.ofNat 24 c.f.toNat
  else if code = 0x19 then BitVec.ofNat 24 c.bx
  else if code = 0x1A then BitVec.ofNat 24 c.mode.toNat
  else if code ≤ 0x1D then BitVec.ofNat 24 (hitchLeft c (code - 0x1B))
  else if code = 0x1E then BitVec.ofNat 24 c.coil.length
  else 0

def srcOf (lay : Bool) : Source := if lay then .lay else .slack

/-- A read through the register window (R288, R289, R887): a low cell makes the register's read side effect and
latches bits [31:24]; a high cell returns the latch of the same register, else the current bits. -/
def readWindow (s : State) (lay high : Bool) (r : Nat) : Cell × State :=
  let c := ctxOf s lay
  if high then
    let cur := byteOf (viewReg s (srcOf lay) r) 3
    let hi := match c.rlatch with
      | some (q, b) => if q = r then b else cur
      | none => cur
    let used := match c.rlatch with
      | some (q, _) => q == r
      | none => false
    (BitVec.ofNat 24 hi.toNat, if used then setCtx s lay { c with rlatch := none } else s)
  else
    let w := viewReg s (srcOf lay) r
    let s := readEffect s (srcOf lay) r
    let c := ctxOf s lay
    (BitVec.ofNat 24 w.toNat, setCtx s lay { c with rlatch := some (r, byteOf w 3) })

/-- A location read without its side effects: what it holds now. -/
def peekLoc (s : State) (lay : Bool) (m : Mods) : Loc → Cell
  | .imm _ c => c
  | .deck n => sget zero s.mem.deck n
  | .table n => tableCell s n
  | .strand a => strandCell s a
  | .ext dev addr pack => extCell s dev addr pack
  | .port off => sget zero s.mem.port off
  | .line n w => lineCell s n w
  | .winLow r => BitVec.ofNat 24 (viewReg s (srcOf lay) r).toNat
  | .winHigh r => (readWindow s lay true r).1
  | .nothing => 0
  | .reg code => readCtxReg (ctxOf s lay) code
  | .part n p => readPart (vget (ctxOf s lay).a n 0) p
  | .acc n => (staConv (vget (ctxOf s lay).a n 0) m).1
  | .fid x0 x1 f =>
    let a := (peekLoc s lay m x0).toInt
    let b := (peekLoc s lay m x1).toInt
    toBits 24 (roundHalfUp (a * (1024 - f) + b * f) 1024)

/-- Whether reading a location saturates (R403). -/
def locSats (s : State) (lay : Bool) (m : Mods) : Loc → Bool
  | .acc n => (staConv (vget (ctxOf s lay).a n 0) m).2.2
  | _ => false

/-- A location read in the instruction's slot: its cell, and the state after the read's side effects. -/
def readLoc (s : State) (lay : Bool) (m : Mods) (l : Loc) : Cell × State :=
  match l with
  | .winLow r => readWindow s lay false r
  | .winHigh r => readWindow s lay true r
  | _ => (peekLoc s lay m l, s)

/-- The integer value of an operand used as a count, target, index or number (R399). -/
def intValue (l : Loc) (c : Cell) : Int :=
  match l with
  | .imm i _ => i
  | _ => c.toInt

/-! ### Writing -/

/-- An accumulator part written from a cell (Table 7.4). -/
def writePart (a : Acc) (p : Nat) (c : Cell) : Acc :=
  match p with
  | 1 => toBits 56 (c.toInt * 2 ^ 24)
  | 2 => BitVec.ofNat 56 (a.toNat / 2 ^ 24 * 2 ^ 24 + c.toNat)
  | _ => BitVec.ofNat 56 (c.toNat % 256 * 2 ^ 48 + a.toNat % 2 ^ 48)

/-- A cell loaded into a whole accumulator as LDA loads it (Table 7.4, R419). -/
def ldaConv (int : Bool) (c : Cell) : Acc := if int then toBits 56 c.toInt else toBits 56 (c.toInt * 2 ^ 24)

/-- A register written (R400, Table 8.6); F sets every flag (R351), BX above 23 loads 23. -/
def writeCtxReg (c : Ctx) (code : Nat) (v : Cell) : Ctx :=
  if code < 0x10 then { c with p := vset c.p code v }
  else if code < 0x14 then { c with m := vset c.m (code - 0x10) v }
  else if code < 0x18 then { c with l := vset c.l (code - 0x14) (BitVec.ofNat 20 v.toNat) }
  else if code = 0x18 then { c with f := BitVec.ofNat 6 v.toNat }
  else if code = 0x19 then { c with bx := min (v.toNat % 32) 23 }
  else c

/-- A write through the register window (R288, R290, R291). -/
def writeWindow (s : State) (lay high : Bool) (r : Nat) (v : Cell) : State :=
  let c := ctxOf s lay
  if high then setCtx s lay { c with wlatch := some (r, BitVec.ofNat 8 v.toNat) }
  else
    let both := match c.wlatch with
      | some (q, b) => if q = r then some b else none
      | none => none
    let s := setCtx s lay { c with wlatch := none }
    match both with
    | some b => (writeReg (srcOf lay) r (BitVec.ofNat 32 (b.toNat * 2 ^ 24 + v.toNat)) 0xF s).1
    | none => (writeReg (srcOf lay) r (BitVec.ofNat 32 v.toNat) 0x7 s).1

/-- A cell written to its location at the end of the slot (R51, R269, R283, R403). -/
def writeLoc (s : State) (lay : Bool) (int : Bool) (l : Loc) (v : Cell) : State :=
  match l with
  | .deck n => { s with mem := eccClear { s.mem with deck := sput zero s.mem.deck n v } .deck n }
  | .strand a => { s with lay := { s.lay with store := some (a, v) } }
  | .ext dev addr pack => extStore s dev addr pack v
  | .port off => writePort s off v
  | .line n w =>
    let v := if w = 2 then v &&& 0x0FFFFF else v
    { s with mem := eccClear { s.mem with line := sput zero s.mem.line (4 * n + w) v,
                                          eccLogged := s.mem.eccLogged.filter (· != n) } .line (4 * n + w) }
  | .winLow r => writeWindow s lay false r v
  | .winHigh r => writeWindow s lay true r v
  | .reg code => setCtx s lay (writeCtxReg (ctxOf s lay) code v)
  | .part n p =>
    let c := ctxOf s lay
    setCtx s lay { c with a := vset c.a n (writePart (vget c.a n 0) p v) }
  | .acc n =>
    let c := ctxOf s lay
    setCtx s lay { c with a := vset c.a n (ldaConv int v) }
  | .imm _ _ | .table _ | .nothing | .fid _ _ _ => s

/-- The post-modifies of an instruction, in operand order: the last of one pointer governs (R396). -/
def applyPosts (c : Ctx) (posts : List (Nat × Cell)) : Ctx :=
  posts.foldl (fun c e => { c with p := vset c.p e.1 e.2 }) c

/-! ### Legality (R402) -/

/-- Operand codes that are illegal anywhere. -/
def opndOk : Opnd → Bool
  | .bad => false
  | _ => true

/-- A destination may not be an immediate, a fid tap, a read-only register or a Table cell (R264, R402). -/
def dstOk : Opnd → Bool
  | .bad => false
  | .imm _ _ => false
  | .fid _ _ => false
  | .table _ => false
  | .ptr space _ _ _ => space != 1
  | .reg code => decide (code < 0x1A)
  | _ => true

def isFid : Opnd → Bool
  | .fid _ _ => true
  | _ => false

def isAcc : Opnd → Bool
  | .acc _ => true
  | _ => false

/-- A cell operand: Deck, Table, tap, fid tap, pointer, strand window or port (Table 8.10, SCALE). -/
def isCellOpnd : Opnd → Bool
  | .deck _ | .table _ | .ptr _ _ _ _ | .port _ | .tap _ _ | .tapK _ _ | .fid _ _ | .win _ _ => true
  | _ => false

/-- The multipliers that fid taps among the operands use (R282, R402). -/
def fidMults (os : List Opnd) : Nat := 2 * os.countP isFid

end Sys2Proof.Machine
end

