-- ==== Sys2Proof/Machine/Flags.lean ====
section
/-! DEFINITION. The 24-bit results and every flag computation of the data instructions (R411 to R415, R428, Table 8.12). -/

namespace Sys2Proof.Machine

/-- Flag bits of F (Table 7.6). -/
def fC : Nat := 0
def fV : Nat := 1
def fN : Nat := 2
def fZ : Nat := 3
def fS : Nat := 4
def fBV : Nat := 5

def getFlag (c : Ctx) (n : Nat) : Bool := c.f.getLsbD n

def putFlag (f : BitVec 6) (n : Nat) (b : Bool) : BitVec 6 :=
  BitVec.ofNat 6 (if b then nset f.toNat n else nclr f.toNat n)

/-- What an instruction does to the flags: none leaves a flag unchanged; S and BV are only ever set (R352). -/
structure FlagFx where
  z : Option Bool := none
  n : Option Bool := none
  v : Option Bool := none
  c : Option Bool := none
  s : Bool := false
  deriving DecidableEq, Repr

def putOpt (f : BitVec 6) (n : Nat) : Option Bool → BitVec 6
  | some b => putFlag f n b
  | none => f

def applyFlags (f : BitVec 6) (x : FlagFx) : BitVec 6 :=
  let f := putOpt (putOpt (putOpt (putOpt f fZ x.z) fN x.n) fV x.v) fC x.c
  if x.s then putFlag f fS true else f

/-- A 24-bit result with its flag effects. -/
structure Res24 where
  r  : Cell
  fx : FlagFx
  deriving DecidableEq, Repr

/-- Z and N of the value written. -/
def znOf (r : Cell) (fx : FlagFx) : FlagFx := { fx with z := some (r == 0), n := some r.msb }

/-- sat24 of an exact result (R411): the cell, V, and whether it saturated. -/
def sat24 (v : Int) (sat : Bool) : Cell × Bool × Bool :=
  if v > 8388607 ∨ v < -8388608 then
    if sat then (if v > 0 then 0x7FFFFF else 0x800000, true, true) else (toBits 24 v, true, false)
  else (toBits 24 v, false, false)

/-- A result under sat24 with Z, N, V and, on saturation, S. -/
def satRes (v : Int) (sat : Bool) (c : Option Bool) : Res24 :=
  let (r, ov, sa) := sat24 v sat
  ⟨r, znOf r { v := some ov, c := c, s := sa }⟩

/-- The round of LERP and TLU (R413): half up, or toward minus infinity. -/
def roundDiv (num : Int) (den : Nat) (half : Bool) : Int := if half then roundHalfUp num den else num / (den : Int)

/-- The data instructions that compute a cell from two sources (R411). -/
inductive Alu where
  | mov | add | sub | neg | abs | and | or | xor | not | shl | shr | shrl | cmp | tst | min | max
  deriving DecidableEq, Repr

/-- The bit shifted out last by a left shift of a cell by c > 0 (R411). -/
def lastOutLeft (a : Cell) (c : Nat) : Bool := if c ≤ 24 then nbit a.toNat (24 - c) else false

/-- R411 and Table 8.12: a is the first source, b the second; n is the second as a count (R399). -/
def aluRes (op : Alu) (a b : Cell) (n : Int) (sat : Bool) : Res24 :=
  let c := min (n % 32).toNat 24
  let cOut := fun (x : Bool) => if c > 0 then some x else none
  match op with
  | .mov => ⟨a, znOf a {}⟩
  | .add => satRes (a.toInt + b.toInt) sat (some (decide (a.toNat + b.toNat ≥ 2 ^ 24)))
  | .sub => satRes (a.toInt - b.toInt) sat (some (decide (a.toNat < b.toNat)))
  | .cmp => satRes (a.toInt - b.toInt) false (some (decide (a.toNat < b.toNat)))
  | .neg => satRes (-a.toInt) sat none
  | .abs => satRes (if a.toInt < 0 then -a.toInt else a.toInt) sat none
  | .and => let r := a &&& b; ⟨r, znOf r { v := some false }⟩
  | .or => let r := a ||| b; ⟨r, znOf r { v := some false }⟩
  | .xor => let r := a ^^^ b; ⟨r, znOf r { v := some false }⟩
  | .not => let r := ~~~a; ⟨r, znOf r { v := some false }⟩
  | .tst => let r := a &&& b; ⟨r, znOf r { v := some false }⟩
  | .min => let r := if a.toInt ≤ b.toInt then a else b; ⟨r, znOf r {}⟩
  | .max => let r := if a.toInt ≥ b.toInt then a else b; ⟨r, znOf r {}⟩
  | .shl => satRes (a.toInt * 2 ^ c) sat (cOut (lastOutLeft a c))
  | .shr =>
    let r : Cell := toBits 24 (a.toInt / 2 ^ c)
    ⟨r, znOf r { v := some false, c := cOut (a.toInt / 2 ^ (c - 1) % 2 == 1) }⟩
  | .shrl =>
    let r : Cell := BitVec.ofNat 24 (a.toNat / 2 ^ c)
    ⟨r, znOf r { v := some false, c := cOut (nbit a.toNat (c - 1)) }⟩

/-- CLAMP (R411, R412). -/
def clampRes (d lo hi : Cell) : Res24 :=
  let m := if d.toInt ≥ lo.toInt then d else lo
  let r := if m.toInt ≤ hi.toInt then m else hi
  ⟨r, znOf r { v := some false, c := some (r != d) }⟩

/-- LERP (R413): t is always a Q1.23 fraction. -/
def lerpRes (d x t : Cell) (m : Mods) : Res24 :=
  satRes (d.toInt + roundDiv ((x.toInt - d.toInt) * t.toInt) (2 ^ 23) m.half) m.sat none

/-- The table index and fraction of TLU (R414). -/
def tluIndex (x : Cell) (int : Bool) : Nat × Nat :=
  if int then ((if x.toInt < 0 then 0 else if x.toInt > 255 then 255 else x.toNat), 0)
  else if x.toInt < 0 then (0, 0) else (cfld x 22 15, cfld x 14 7)

/-- TLU (R414). -/
def tluRes (v0 v1 : Cell) (f : Nat) (m : Mods) : Res24 :=
  let r : Cell := toBits 24 (v0.toInt + roundDiv ((v1.toInt - v0.toInt) * f) 256 m.half)
  ⟨r, znOf r {}⟩

/-- Redundant sign bits of a stored cell (R355). -/
def headroom (v : Cell) : Nat :=
  let same := fun i => v.getLsbD i == v.msb
  ((List.range 23).find? (fun k => !same (22 - k))).getD 23

/-- A store with the track modifier (R355). -/
def trackStore (c : Ctx) (v : Cell) : Ctx :=
  { c with bx := min c.bx (headroom v), f := putFlag c.f fBV true }

/-- Whether a branch condition holds (Tables 7.7, 8.11, R354). -/
def condHolds (cc : Nat) (c : Ctx) : Bool :=
  let z := getFlag c fZ
  let n := getFlag c fN
  let v := getFlag c fV
  match cc with
  | 0 => true
  | 1 => z
  | 2 => !z
  | 3 => n
  | 4 => !n
  | 5 => v
  | 6 => !v
  | 7 => getFlag c fC
  | 8 => !getFlag c fC
  | 9 => n == v
  | 10 => n != v
  | 11 => !z && n == v
  | 12 => z || n != v
  | 13 => getFlag c fS
  | 14 => !getFlag c fS
  | _ => getFlag c fBV

end Sys2Proof.Machine
end

