-- ==== Sys2Proof/Machine/Overrun.lean ====
section
/-! DEFINITION. The Lay at the fence (R43 to R47, R208). -/

namespace Sys2Proof.Machine

/-- The detail word of FRAME_OVERRUN (Table 9.3): a walk was abandoned, and the slots charged. -/
def overrunDetail (s : State) (abandoned : Bool) : Word :=
  BitVec.ofNat 32 (b2n abandoned * 2 ^ 31 + s.map.charged % 2048)

/-- The Lay stands at the fence without END: a frame overrun (R43, R45), or the pause of a step run (R208). -/
def layStopAtFence (s : State) (abandoned : Bool) : State :=
  if s.lay.stepping then { s with lay := { s.lay with inLay := false, stepping := false } }
  else
    let s := logHw s .frameOverrun (overrunDetail s abandoned)
    let s := setB (countUp s Reg.layStatus 31 24) Reg.layStatus 1 true
    { s with lay := { s.lay with inLay := false, overran := true, tainted := true } }

/-- The slots up to the fence pass, and the Lay that still runs stops there (R43). -/
def runToFence (s : State) : State :=
  if s.lay.inLay then layStopAtFence (passSlots s (fence s - s.clock.slot)) false else s

/-- FRAME_OVERRUN (R43). -/
def execFrameOverrun (s : State) : Host.Outcome State Fault Refusal := .next (runToFence s)

end Sys2Proof.Machine
end

