-- ==== Sys2Proof/Machine/Params.lean ====
section
/-! DEFINITION. Named parameters of the image SPLN section, as the LIN and two-wire command handlers stage them (R519). -/

namespace Sys2Proof.Machine

/-- The SPLN entry with a number. -/
def findParam (s : State) (id : Nat) : Option SplnEntry := s.loader.spln.find? (fun e => e.id == id)

/-- A word that a ROM program reads, a micro-routine's or a ROM Lay's (R271, R272, R441, Table 6.2): an uncorrectable one
annuls the reading instruction, which is logged; a Lay's also taints the frame (R444). -/
def romFetch (s : State) (lay : Bool) (r : RamId) (a : Nat) : Bool × State :=
  let (bad, t) := eccRead s r a
  if bad then
    let u := logPush t ⟨.ramEcc, if lay then .lay else .rom, false, false, false, s.clock.slot, Config.romPc lay (ramNo r),
      frameNo s, BitVec.ofNat 32 (ramNo r * 2 ^ 28 + a)⟩
    (true, if lay then { u with lay := { u.lay with tainted := true } } else u)
  else (false, t)

/-- The cell takes its value in the shadow Table, with the entry's mark; the pointer stays as it was. -/
def paramCell (s : State) (e : SplnEntry) (v : Cell) : State :=
  let mark := getB s Reg.splStagePtr 29
  let s := stageStore (setB (spliceClaim s .rom) Reg.splStagePtr 29 e.mark) 0 e.cell (BitVec.ofNat 32 v.toNat)
  setB s Reg.splStagePtr 29 mark

/-- The staged parameter's commit is armed with the entry's glide for a frame (R493). -/
def paramArm (s : State) (e : SplnEntry) (frame : Word) : State :=
  setReg { s with splice := { s.splice with state := .armed, armG := e.glide, armNext := false } } Reg.splCommitFrame frame

/-- A parameter is staged and its commit armed for the frame named, or else for the next (R519). False: the splice unit
refused it (R489), or the frame named is past (R494). -/
def paramStage (s : State) (e : SplnEntry) (v : Cell) (frame : Option Word) : State × Bool :=
  if !spliceTakes s .rom then (spliceRefuse s 4, false)
  else
    let t := paramCell s e v
    match frame with
    | none => (paramArm t e (frameNo t + 1), true)
    | some f =>
      if atOrPast (frameNo t) f then
        (sysEvent (setB (logPush t (lateItem t .rom f)) Reg.splStatus 6 true) 2, false)
      else (paramArm t e f, true)

end Sys2Proof.Machine
end

