-- ==== Sys2Proof/Machine/Loader.lean ====
section
/-! DEFINITION. The image loader: start attempts, boot sources, the flash directory, step 9, and loads in chunks
(04_modes_and_bringup.md, R165 to R172; 11_image_bundle.md, R545 to R566; 12_xport_and_reels.md, R578 to R580). -/

namespace Sys2Proof.Machine

/-! ### Loading memories -/

/-- Memory writes of a payload (R536, R548): a banked store takes them in both copies. -/
def putMem (m : Mem) : Put → Mem
  | .prog a w => eccClear (eccClear { m with prog0 := sput zero m.prog0 a w, prog1 := sput zero m.prog1 a w } .prog0 a) .prog1 a
  | .table a c =>
    eccClear (eccClear { m with table0 := sput zero m.table0 a c, table1 := sput zero m.table1 a c } .table0 a) .table1 a
  | .deck a c => eccClear { m with deck := sput zero m.deck a c } .deck a
  | .line n w c =>
    eccClear { m with line := sput zero m.line (4 * n + w) c, eccLogged := m.eccLogged.filter (· != n) } .line (4 * n + w)
  | .strand a c => eccClear { m with strand := sput zero m.strand a c } .strand a

def applyPuts (s : State) (ps : List Put) : State := { s with mem := ps.foldl putMem s.mem }

/-- What the loader knows of the device (Table 11.7, R128, R171). -/
def loadCtx (s : State) : LoadCtx :=
  { roleBit := roleBit s, romVersion := Config.romVersion.toNat, variant := codeInForce s 1 }

/-- The variant that a bundle runs on this device (R527). -/
def runVariant (s : State) (img : List Byte) : Nat := variantOf img (codeInForce s 1)

/-! ### Step 9 (R549) -/

/-- A LIN frame entry (Table 15.2). -/
def frameEntry (b : List Byte) : FrameEntry :=
  { id := at8 b 0 % 64, len := at8 b 1 % 16, publish := nbit (at8 b 1) 4, classic := nbit (at8 b 1) 5, kind := at8 b 2,
    off := at8 b 3, width := at8 b 4 % 4, isSigned := nbit (at8 b 4) 7, param := at16 b 5 }

/-- A record is a register write from the loader (R542). -/
def applyRecord (s : State) (r : Rec) : State := regWrite s .rom (64 * r.page + r.idx) r.val

/-- The records of a section type, where it lies at an offset from its payload's start. -/
def applyRecords (s : State) (img : List Byte) (v t skip : Nat) : State :=
  match findSect img v t with
  | some e => (records img (e.off + skip)).foldl applyRecord s
  | none => s

/-- The gain words of a PORT section load both copies (R543). -/
def applyGains (s : State) (img : List Byte) (v : Nat) : State :=
  match findSect img v 0x0A with
  | some e =>
    let g := fun (old : Vector Cell 16) => (List.range 16).foldl (fun (acc : Vector Cell 16) k =>
      vset acc k (BitVec.ofNat 24 (at24 img (e.off + 4 * k)) &&& 0x80FFFF)) old
    { s with splice := { s.splice with gain0 := g s.splice.gain0, gain1 := g s.splice.gain1 } }
  | none => s

/-- The LIN frame table of a HALP section (R739). -/
def applyHalp (s : State) (img : List Byte) (v : Nat) : State :=
  match findSect img v 0x0E with
  | some e =>
    let table := (halpEntries img (e.off + 4 + 8 * at32 img e.off)).map frameEntry
    { s with hal := { s.hal with table := table, romProf := false, resp := table.map (fun _ => []) } }
  | none => s

/-- The parameter table of an SPLN section (Table 11.6). -/
def applySpln (s : State) (img : List Byte) (v : Nat) : State :=
  let entry := fun (e : Sect) k =>
    let o := e.off + 4 + 8 * k
    (⟨at16 img o, at16 img (o + 2) % 8192, nbit (at16 img (o + 2)) 15, at16 img (o + 4)⟩ : SplnEntry)
  { s with loader := { s.loader with spln := match findSect img v 0x09 with
      | some e => (List.range (at32 img e.off)).map (entry e)
      | none => [] } }

/-- A pin of the PINS section (R321, R322); false: its walk failed. No Lay runs, and no frame tick comes inside the step. -/
def applyPin (acc : State × Bool) (vpn : Nat) : State × Bool :=
  let s := acc.1
  let slot := s.clock.slot
  let len := s.clock.frameLen
  let s := pinRun { s with
    map := { s.map with pin := some vpn }, clock := { s.clock with slot := 0, frameLen := 2 ^ 32 } } vpn
  let t := { s with map := { s.map with pin := none }, clock := { s.clock with slot := slot, frameLen := len } }
  let held := match cacheFind t.map vpn with
    | some i => match vget t.map.cache i none with
      | some e => e.pinned
      | none => false
    | none => false
  (t, acc.2 && held)

/-- MAP_L1_BASE waits for the next frame tick (R297, R321, R538). -/
def applyBase (s : State) (img : List Byte) (v : Nat) : State :=
  match findSect img v 0x06 with
  | some e => { s with tickPend := pendPut s.tickPend Reg.mapL1Base (BitVec.ofNat 32 (at32 img e.off) &&& 0xF0FFFFFF) }
  | none => s

/-- The frame tick at which a waiting MAP_L1_BASE takes effect: the cache and every pin are cleared first (R297, R897). -/
def baseTakes (s : State) : State :=
  let mine := fun (e : Nat × Word) => e.1 == Reg.mapL1Base
  if s.tickPend.any mine then
    let t := { s with tickPend := s.tickPend.filter (fun e => !mine e), map := cacheEmpty s.map }
    (s.tickPend.filter mine).foldl (fun t e => setReg t e.1 e.2) t
  else s

/-- The map base and the pins (R538, R539, R897): with pins, the step lasts past the frame tick that the base waits for, and
the pin walks run under it, so that they are over before the first Lay frame (R321). -/
def applyMaps (s0 : State) (img : List Byte) (v : Nat) : State × Bool :=
  let s := applyBase s0 img v
  match findSect img v 0x07 with
  | some e => (pinPages img e).foldl applyPin (baseTakes s, true)
  | none => (s, true)

/-- Rate, budget and entries (R549); the rate takes effect at the next frame tick (R167). -/
def applyHead (s : State) (img : List Byte) (v : Nat) : State :=
  let s := { s with
    clock := { s.clock with rateDue := some (BitVec.ofNat 2 (imgRate img)), rateNext := none, romRate := none },
    loader := { s.loader with lmax := imgLmax img } }
  let s := setReg (setReg s Reg.laySlackMin (BitVec.ofNat 32 (imgSlack img))) Reg.layWalkAllow (BitVec.ofNat 32 (imgWalk img))
  let s := setReg s Reg.layEntry (BitVec.ofNat 32 (varEntry img v))
  let slck := (varSects img v).any (fun e => e.type == 0x02)
  setReg s Reg.laySlackEntry (BitVec.ofNat 32 (b2n slck * 2 ^ 31 + varSlackEntry img v))

/-- Step 9 on an accepted bundle (R549, check 10). False: a pin walk failed. -/
def applyImage (s : State) (img : List Byte) : State × Bool :=
  let v := runVariant s img
  let s := applyGains (applyHead s img v) img v
  let s := applyRecords s img v 0x0A 64
  let s := applyRecords s img v 0x0B 0
  let s := applyRecords s img v 0x0C 0
  let s := applyRecords s img v 0x08 0
  let s := applyHalp (applyRecords s img v 0x0E 0) img v
  let (s, ok) := applyMaps (applySpln s img v) img v
  let twbi := match findSect img v 0x0D with
    | some e => (img.drop e.off).take e.len
    | none => []
  ({ s with loader := { s.loader with twbi := twbi, twbiOn := false } }, ok)

/-! ### A refused load leaves nothing behind (R550, R556, R558) -/

/-- The memories that a put wrote are cleared again with valid ECC. -/
def clearRam (m : Mem) : Put → Mem
  | .prog _ _ => { m with prog0 := [], prog1 := [], ecc := m.ecc.filter (fun e => e.ram != .prog0 && e.ram != .prog1) }
  | .table _ _ => { m with table0 := [], table1 := [], ecc := m.ecc.filter (fun e => e.ram != .table0 && e.ram != .table1) }
  | .deck _ _ => { m with deck := [], ecc := m.ecc.filter (fun e => e.ram != .deck) }
  | .line _ _ _ => { m with line := [], ecc := m.ecc.filter (fun e => e.ram != .line), eccLogged := [] }
  | .strand _ _ => { m with strand := [], ecc := m.ecc.filter (fun e => e.ram != .strand) }

/-- Every memory that the bytes received so far wrote is cleared; under a refused head nothing was written. -/
def clearLoaded (s : State) (img : List Byte) : State :=
  if img.length < headLen ∨ (headCheck (loadCtx s) img).isSome = true then s
  else { s with mem := (imagePuts (loadCtx s) img 0 img.length).foldl clearRam s.mem }

/-- The reset value of a register under the straps in force. -/
def resetWord (s : State) (r : Nat) : Word := getReg (strapRegs (roleRegs { s with regs := [] })) r

/-- The registers that step 9 writes. -/
def writtenRegs (img : List Byte) (v : Nat) : List Nat :=
  let recs := fun (t skip : Nat) => match findSect img v t with
    | some e => (records img (e.off + skip)).map (fun r => 64 * r.page + r.idx)
    | none => []
  [Reg.laySlackMin, Reg.layWalkAllow, Reg.layEntry, Reg.laySlackEntry]
    ++ (if (findSect img v 0x06).isSome then [Reg.mapL1Base, Reg.mapCacheCtrl] else [])
    ++ recs 0x0A 64 ++ recs 0x0B 0 ++ recs 0x0C 0 ++ recs 0x08 0 ++ recs 0x0E 0

/-- After a failed pin walk: s0 before step 9, s after it. What the walks logged stays. -/
def unapplyAll (s0 s : State) (img : List Byte) : State :=
  let regs := writtenRegs img (runVariant s img)
  let base := strapRegs (roleRegs { s with regs := [] })
  let s := regs.foldl (fun s r => setReg s r (getReg base r)) s
  { s with
    clock := { s.clock with rateDue := s0.clock.rateDue, rateNext := s0.clock.rateNext, romRate := s0.clock.romRate },
    tickPend := s0.tickPend, map := MapUnit.init, hal := s0.hal, reel := s0.reel, xp := s0.xp, light := s0.light,
    rope := s0.rope, clk := s0.clk, audio := s0.audio, pins := s0.pins,
    loader := { s.loader with lmax := s0.loader.lmax, spln := [], twbi := [] },
    splice := { s.splice with gain0 := SpliceUnit.init.gain0, gain1 := SpliceUnit.init.gain1 } }

/-- After a failed pin walk, FAULT# follows its sources again (R471), and the order of references its reset value (R221). -/
def unapply (s0 s : State) (img : List Byte) : State :=
  let t := unapplyAll s0 s img
  pinSettle (if getReg t Reg.clkSrcOrder = getReg s0 Reg.clkSrcOrder then t else orderWritten t)

/-! ### Flash (R551 to R554, R569, R578 to R580) -/

/-- The bytes of device 0 from an address. -/
def flashBytes (s : State) (a n : Nat) : List Byte := (List.range n).map (fun k => extByte s 0 (a + k))

/-- Lane codes of a read mode (Table 12.3): command, address and data phases, and whether they are DDR. -/
structure ModeLanes where
  cmd  : Nat
  addr : Nat
  data : Nat
  ddr  : Bool
  deriving DecidableEq, Repr

/-- The first read mode that device 0 supports in the order 8D-8D-8D, 1S-4S-4S, 1S-1S-4S, 1S-1S-1S (R579). -/
def readMode (f : Sfdp) : SfdpMode × ModeLanes :=
  match f.octal, f.quadIo, f.quadOut with
  | some m, _, _ => (m, ⟨2, 2, 2, true⟩)
  | none, some m, _ => (m, ⟨0, 1, 1, false⟩)
  | none, none, some m => (m, ⟨0, 0, 1, false⟩)
  | none, none, none => (f.single, ⟨0, 0, 0, false⟩)

/-- A transaction profile of a mode (Table 12.3): 8D-8D-8D sends the inverse of the opcode and 4 address bytes. -/
def modeProfile (opcode : Byte) (dummy : Nat) (addr4 : Bool) (l : ModeLanes) : Word :=
  BitVec.ofNat 32 (opcode.toNat * 2 ^ 24 + b2n l.ddr * 2 ^ 22 + l.cmd * 2 ^ 20 + b2n l.ddr * 2 ^ 19 + l.addr * 2 ^ 17
    + b2n l.ddr * 2 ^ 16 + (if l.ddr || addr4 then 2 else 1) * 2 ^ 14 + l.data * 2 ^ 12 + b2n l.ddr * 2 ^ 11 + dummy * 16)

/-- The smallest legal divisor whose XCK exceeds neither a mode's highest frequency nor 98.304 MHz (R580), 62 at the
least. -/
def modeDiv (khz : Nat) : Nat :=
  (((List.range 31).map (fun k => 2 * (k + 1))).find? (fun d => decide (196608 ≤ d * min khz 98304))).getD 62

/-- The exponent of the largest power of 2 in a density of d bytes. -/
def sizeOf2 (d : Nat) : Nat := ((List.range 64).filter (fun e => decide (2 ^ e ≤ d))).length - 1

/-- Step 7 (R578 to R580): the X-port is absent below 0.5 V; else XRST# is released and device 0 is discovered. -/
def discover (s : State) (sfdp : Option Sfdp) : State :=
  if s.xp.io = 0 then s
  else
    let s := { s with power := { s.power with xrstLow := false } }
    match sfdp with
    | none => setF s (Reg.xpDevSize 0) 31 30 0
    | some f =>
      let (m, l) := readMode f
      let size := sizeOf2 f.density
      let s := setF s (Reg.xpDevSize 0) 31 30 1
      let s := if 16 ≤ size ∧ size ≤ 31 then setF s (Reg.xpDevSize 0) 4 0 size else s
      let s := setReg s (Reg.xpPhase 0) (modeProfile m.read m.dummy.toNat m.addr4 l)
      let s := setReg s (Reg.xpPhase 2) (modeProfile m.prog 0 m.addr4 l)
      { setF s Reg.xpCfg 5 0 (modeDiv m.khz) with
        xp := { s.xp with sfdpOk := true, sfdp := some f, entry := m.entry, entrySent := m.entry } }

/-- A flash slot: its bundle, or the reason that refuses it (R169, R547, R552 to R554). -/
def slotImage (s : State) (b : Bool) : Except Reason (List Byte) :=
  if !s.xp.sfdpOk then .error .imageAbsent
  else
    let dir := flashBytes s 0 4096
    let ptr := at32 dir (if b then 0x0C else 0x08)
    let size := devSize s 0
    if !dirOk dir || !slotOk ptr size then .error .imageAbsent
    else if ptr + headLen > size then .error .imageCheck
    else
      let head := flashBytes s ptr headLen
      match headCheck (loadCtx s) head with
      | some r => .error r
      | none =>
        let n := imgTotal head
        if ptr + n > size then .error .imageCheck
        else
          let img := flashBytes s ptr n
          match imageVerdict (loadCtx s) img with
          | .accepted => .ok img
          | .refused r => .error r
          | .more => .error .imageCheck

/-! ### Boot sources (R168 to R172) -/

/-- BOOT_SRC and VARIANT of SYS_STATUS (R171). -/
def setBoot (s : State) (src variant : Nat) : State := setF (setF s Reg.sysStatus 19 16 src) Reg.sysStatus 27 24 variant

/-- RAISE stands before the first Lay frame. -/
def readyForLay (s : State) : State := { s with power := { s.power with raise := .firstFrame } }

/-- The ROM Lay of CFG0 runs (R129, R20, R42). -/
def bootRom (s : State) : State :=
  let code := romLay s
  let s := { s with
    clock := { s.clock with rateDue := some (s.clock.romRate.getD (cfg1Rate (codeInForce s 2))) },
    loader := { s.loader with lmax := Config.romLmax code },
    rom := { RomLay.init with code := some code } }
  readyForLay (setBoot s 3 code)

/-- A flash slot is tried; false: it is refused, and nothing of it is left (R550). -/
def bootSlot (s : State) (b : Bool) : State × Bool :=
  match slotImage s b with
  | .error r => (setLastFail s r, false)
  | .ok img =>
    let t := applyPuts s (imagePuts (loadCtx s) img 0 img.length)
    let (u, ok) := applyImage t img
    if ok then (readyForLay (setBoot u (if b then 2 else 1) (runVariant s img)), true)
    else (setLastFail (clearLoaded (unapply t u img) img) .imageCheck, false)

/-- The boot sources in order (Table 4.7). -/
def tryBoot (s : State) : List BootSource → State
  | [] => failedStart s (if msCode s = 7 ∨ msCode s = 8 then .ropeNoImage else .imageAbsent) 6
  | .rom :: _ => bootRom s
  | .rope :: _ => { s with power := { s.power with raise := .ropeWait } }
  | .slotA :: rest => let (t, ok) := bootSlot s false
                      if ok then t else tryBoot t rest
  | .slotB :: rest => let (t, ok) := bootSlot s true
                      if ok then t else tryBoot t rest

/-- Every RAM cleared with valid ECC (step 6). -/
def clearRams (s : State) : State := { s with mem := { Mem.init with ext := s.mem.ext, epoch := s.mem.epoch } }

/-- Step 6 ends under MS code 14, or on a leave-LIMP request with TARGET 7 (R193). -/
def raiseWorkshop (s : State) : State :=
  changeMode { s with power := { s.power with toWorkshop := false }, lay := Lay.init } .workshop

/-- START_ATTEMPT (R165, R168): steps 6 to 9 of RAISE. Under a strap LIMP reason, which a wake does not read again, no boot
source is tried, and the device is in LIMP with that reason (R195, R196). -/
def execStartAttempt (bistOk : Bool) (sfdp : Option Sfdp) (s : State) : Host.Outcome State Fault Refusal :=
  if !(s.power.mode == .raise && s.power.raise == .attempt) then .next s
  else if !bistOk then .next (limpEnter s .ramBist true)
  else
    let s := clearRams (xpSettle { s with xp := { s.xp with io := ioMode s.power.vddxMv } })
    if s.power.toWorkshop || role s == .workshop then .next (raiseWorkshop s)
    else
      match strapReason s with
      | some r => .next (limpEnter s r true)
      | none =>
      let s := countUp s Reg.sysStartCount 15 8
      let sources := bootSources (msCode s)
      .next (tryBoot (if sources.contains .slotA then discover s sfdp else s) sources)

/-! ### Loads in chunks (R556 to R566) -/

/-- The next expected byte offset (R557). -/
def loadNext (s : State) : Nat := if s.loader.state == .receiving then s.loader.bytes.length else 0

/-- The state byte of R562. -/
def loadStateByte (s : State) : Byte :=
  match s.loader.state with
  | .none => 0x00
  | .receiving => 0x01
  | .accepted => 0x02
  | .refused => 0x03

/-- A load is refused (R558, R559, R564): LAST_FAIL takes its reason, and WHP0 is free again (R856). -/
def loadRefuse (s : State) (r : Reason) : State :=
  let s := setB (setLastFail (clearLoaded s s.loader.bytes) r) Reg.sysStatus 8 false
  let s := { s with loader := { s.loader with state := .refused, bytes := [] } }
  if loaderOwns s then s else whipReset s 0

/-- A load is accepted and applied at once (R549, R563); over the rope in RAISE the start goes on (R559). -/
def loadAccept (s : State) : State :=
  let img := s.loader.bytes
  let (t, ok) := applyImage s img
  if !ok then loadRefuse (unapply s t img) .imageCheck
  else
    let t := { t with loader := { t.loader with state := .accepted } }
    if t.power.mode == .raise then readyForLay (setBoot t 4 (runVariant t img))
    else whipReset (setB t Reg.sysStatus 8 true) 0

/-- Bytes at the next expected offset join the load: they are checked and written as they arrive (R548, R558). -/
def loadTake (s : State) (data : List Byte) : State :=
  let lo := s.loader.bytes.length
  let img := s.loader.bytes ++ data
  let s := { s with loader := { s.loader with bytes := img } }
  match imageVerdict (loadCtx s) img with
  | .refused r => loadRefuse s r
  | .more => if img.length < headLen then s else applyPuts s (imagePuts (loadCtx s) img lo img.length)
  | .accepted => loadAccept (applyPuts s (imagePuts (loadCtx s) img lo (imgTotal img)))

/-- A chunk (R556, R557, R565). -/
def loadChunk (s : State) (overRope : Bool) (offset : Nat) (data : List Byte) : State :=
  if offset = 0 then
    let s := if s.loader.state == .receiving then clearLoaded s s.loader.bytes else s
    let s := setB s Reg.sysStatus 8 false
    loadTake { s with loader := { s.loader with state := .receiving, overRope := overRope, bytes := [] } } data
  else if s.loader.state == .receiving && decide (offset = s.loader.bytes.length) then loadTake s data
  else s

end Sys2Proof.Machine
end

