-- ==== Sys2Proof/Machine/Rope.lean ====
section
/-! DEFINITION. The rope as worker: exchanges, replies and the opcodes of Table 13.7 (13_rope.md, R642 to R665). -/

namespace Sys2Proof.Machine

/-! ### Replies (R644 to R650) -/

/-- The worker hears an exchange: Tables 4.8 and 4.6 step 5; a master and a standby manager of node 0 do not (R666). -/
def ropeHears (s : State) : Bool :=
  !s.power.factory && !getB s Reg.ropCfg 31
    && !(role s == .standbyManager && getF s Reg.ropNode 7 0 == 0)
    && (match s.power.mode with
      | .raise => pllRuns s
      | .limp | .run | .holdover | .workshop | .quiesce => true
      | .off | .dormant | .standby => false)

/-- The live status byte (Table 13.5). -/
def statusByte (s : State) : Nat :=
  b2n (getB s Reg.pwrWakeSrc 8) * 128 + b2n (s.splice.state == .armed) * 64 + b2n (getB s Reg.cltLogHead 20) * 32
    + b2n s.rope.lenErr * 16 + b2n (s.power.mode == .limp) * 8 + b2n (s.power.mode == .holdover) * 4
    + b2n (getF s Reg.cltTaint 15 8 != 0) * 2 + b2n (pinModes s.power.mode)

/-- The words of items 1 to 4 of R644 before padding. -/
def replyWords (s : State) (r : Reply) : List Word :=
  let head := BitVec.ofNat 32 (r.payload.length * 2 ^ 24 + r.result.toNat * 65536 + r.seq.toNat * 256 + statusByte s)
  let body := head :: r.payload
  if r.rcrc && getB s Reg.ropCfg 27 then body ++ [crcWord body] else body

/-- What an exchange clocks out: the reply of the previous request, or PENDING while it executes (R649). -/
def ropeSend (s : State) (x : Exchange) : State :=
  let r := match s.rope.next with
    | some n => (⟨n.seq, 2, [], n.rcrc⟩ : Reply)
    | none => s.rope.reply
  let s := ropStamp s x.fallFrame.toNat x.fallSlot.toNat
  { s with rope := { s.rope with sent := replyWords s r } }

/-- The reply of a request that is not executed: ready for the next exchange. -/
def replyNow (s : State) (r : Reply) : State := { s with rope := { s.rope with reply := r } }

/-- The reply of an executed request (R650, R652, R676); none when executing it restarted the device. -/
def replyLater (s : State) (r : Reply) : State :=
  match s.rope.next with
  | some _ => { s with rope := { s.rope with next := some r, last := some r } }
  | none => s

/-! ### Reception (R646, R647) -/

def hdrOp (h : Word) : Nat := fld h 31 24
def hdrLen (h : Word) : Nat := fld h 23 16
def hdrSeq (h : Word) : Byte := byteOf h 1

/-- ROP_FAULT names a rejected request. -/
def ropeFault (s : State) (code : Nat) (seq : Byte) : State := setF s Reg.ropFault 31 16 (code * 256 + seq.toNat)

/-- A bit count that is no multiple of 32 (R646). -/
def lengthReject (s : State) (x : Exchange) : State :=
  let bits := 32 * x.words.length + x.extra.toNat
  let seq := match x.words with
    | h :: _ => hdrSeq h
    | [] => 0
  let s := logHw s .ropeLengthReject (BitVec.ofNat 32 (bits % 65536))
  let s := ropFlag (countUp s Reg.ropStatus 31 24) 5
  let s := setF (ropeFault s 0x12 seq) Reg.ropFault 15 0 bits
  replyNow { s with rope := { s.rope with lenErr := true } } ⟨seq, 3, [], false⟩

/-- A CRC word that does not match (R647). -/
def crcReject (s : State) (h : Word) : State :=
  let s := ropFlag (logHw s .ropeCrc (BitVec.ofNat 32 (hdrSeq h).toNat)) 6
  replyNow (ropeFault s 0x13 (hdrSeq h)) ⟨hdrSeq h, 4, [], false⟩

/-- What an opcode does with its payload: the state, the result code and the reply payload. -/
abbrev RopeAct := State → Exchange → List Word → State × Nat × List Word

/-- A request with a whole number of words, whose header is h (R642, R643, R647, R652, R654). -/
def ropeJudge (s : State) (x : Exchange) (h : Word) (lenOk : Nat → Bool) (allowed : State → Bool) (act : RopeAct) : State :=
  let len := hdrLen h
  let reply := fun (r : Nat) => (⟨hdrSeq h, BitVec.ofNat 8 r, [], bit h 2⟩ : Reply)
  let crc := bit h 0
  if (crc && !getB s Reg.ropCfg 27) || decide (x.words.length < 1 + len + b2n crc) then replyNow s (reply 5)
  else if crc && x.words.getD (len + 1) 0 != crcWord (x.words.take (len + 1)) then crcReject s h
  else if fld h 7 3 ≠ 0 ∨ lenOk len = false then replyNow s (reply 5)
  else
    match s.rope.last.filter (fun l => bit h 1 && l.seq == hdrSeq h) with
    | some l => replyNow s l
    | none =>
      if !allowed s then replyNow s (reply 6)
      else
        let (t, r, payload) := act { s with rope := { s.rope with next := some (reply 0) } } x ((x.words.drop 1).take len)
        replyLater t { reply r with payload := payload }

/-- An exchange whose header holds an opcode that isOp accepts (R644 to R654). -/
def ropeExchange (isOp : Nat → Bool) (lenOk : Nat → Bool) (allowed : State → Bool) (act : RopeAct) (x : Exchange)
    (s : State) : State :=
  if x.words.isEmpty && x.extra == 0 then s
  else if !ropeHears s then s
  else
    let busy := s.rope.next.isSome
    let t := ropeSend s x
    if busy then t
    else if x.extra != 0 then lengthReject t x
    else
      match x.words with
      | h :: _ =>
        if isOp (hdrOp h) then ropeJudge { t with rope := { t.rope with lenErr := false } } x h lenOk allowed act else s
      | [] => s

/-! ### Modes of Table 13.7 -/

def inFull (s : State) : Bool := pinModes s.power.mode
def inAnswering (s : State) : Bool := inFull s || s.power.mode == .raise || s.power.mode == .limp
def inRaiseFull (s : State) : Bool := inFull s || s.power.mode == .raise
def inLimpFull (s : State) : Bool := inFull s || (s.power.mode == .limp)

/-- IMG_CHUNK and IMG_STATE: during the wait of R170, and in WORKSHOP. -/
def inImage (s : State) : Bool :=
  (s.power.mode == .raise && s.power.raise == .ropeWait) || s.power.mode == .workshop

/-- Words of registers, in order. -/
def regWords (s : State) (rs : List Nat) : List Word := rs.map (viewReg s .rope)

/-- The reply of IMG_CHUNK and IMG_STATE. -/
def imgReply (s : State) : List Word := [BitVec.ofNat 32 (loadNext s), BitVec.ofNat 32 (loadStateByte s).toNat]

/-! ### Opcodes -/

/-- NOP; a reserved opcode gets BAD_FRAME, whatever its LEN. -/
def execRopeNop (x : Exchange) (s : State) : Host.Outcome State Fault Refusal :=
  let reserved := match x.words with
    | h :: _ => decide (hdrOp h ≥ 0x0B)
    | [] => false
  .next (ropeExchange (fun op => op == 0 || decide (op ≥ 0x0B)) (fun n => n == 0 && !reserved) inAnswering
    (fun s _ _ => (s, 1, [])) x s)

def execRopeIdent (x : Exchange) (s : State) : Host.Outcome State Fault Refusal :=
  .next (ropeExchange (· == 1) (· == 0) inAnswering
    (fun s _ _ => (s, 1, regWords s [Reg.idPart, Reg.idStep, Reg.idUniqueLo, Reg.idUniqueHi, Reg.ropNode, Reg.strMs])) x s)

def execRopeStatus (x : Exchange) (s : State) : Host.Outcome State Fault Refusal :=
  .next (ropeExchange (· == 2) (· == 0) inAnswering
    (fun s _ _ => (s, 1, regWords s [Reg.sysMode, Reg.sysStatus, Reg.sysReason, Reg.sysStartCount, Reg.sysFrame])) x s)

/-- Consecutive registers are read, each with its side effect (R886, R887). -/
def readRegs (s : State) (r : Nat) : Nat → State × List Word
  | 0 => (s, [])
  | n + 1 =>
    let v := viewReg s .rope r
    let (t, vs) := readRegs (readEffect s .rope r) (r + 1) n
    (t, v :: vs)

def ropeReadAct : RopeAct := fun s _ ws =>
  let a := ws.headD 0
  let page := fld a 7 0
  let idx := fld a 15 8
  let n := fld a 23 16
  if page > 0x18 ∨ idx = 0 ∨ n = 0 ∨ idx + n > 64 then (s, 8, [])
  else
    let (t, vs) := readRegs s (64 * page + idx) n
    (t, 1, vs)

def execRopeRead (x : Exchange) (s : State) : Host.Outcome State Fault Refusal :=
  .next (ropeExchange (· == 3) (· == 1) inFull ropeReadAct x s)

/-- One record of WRITE: the result it alone would give. -/
def writeRecord (s : State) (a v : Word) : State × Nat :=
  let page := fld a 7 0
  let idx := fld a 15 8
  if page > 0x18 ∨ idx > 63 then (s, 8)
  else
    let (t, refused) := writeReg .rope (64 * page + idx) v 0xF s
    (t, if refused then 7 else 1)

/-- Records in order (R655): the first result other than OK governs, and the first refused record is named. -/
def writeRecords (s : State) : List Word → Nat → Nat → Option Nat → State × Nat × List Word
  | a :: v :: rest, i, res, ref =>
    let (t, r) := writeRecord s a v
    writeRecords t rest (i + 1) (if res = 1 then r else res) (if r = 7 ∧ ref.isNone = true then some i else ref)
  | _, _, res, ref => (s, res, if res = 7 then [BitVec.ofNat 32 (ref.getD 0)] else [])

def execRopeWrite (x : Exchange) (s : State) : Host.Outcome State Fault Refusal :=
  .next (ropeExchange (· == 4) (fun n => n != 0 && n % 2 == 0 && decide (n ≤ 126)) inFull
    (fun s _ ws => writeRecords s ws 0 1 none) x s)

/-- CELLS: consecutive Deck cells; the fallback time of ROM Lay 12 restarts. -/
def cellsAct : RopeAct := fun s _ ws =>
  let first := fld (ws.headD 0) 11 0
  let vals := ws.drop 1
  if first + vals.length > 4096 then (s, 8, [])
  else
    let m := ((List.range vals.length).zip vals).foldl (fun m e =>
      eccClear { m with deck := sput zero m.deck (first + e.1) (BitVec.ofNat 24 e.2.toNat) } .deck (first + e.1)) s.mem
    ({ s with mem := m, rom := { s.rom with cellsAge := 0 } }, 1, [])

def execCells (x : Exchange) (s : State) : Host.Outcome State Fault Refusal :=
  .next (ropeExchange (· == 5) (fun n => decide (2 ≤ n) && decide (n ≤ 126)) inFull cellsAct x s)

/-- The window of R660: slots of the frame in which RSS# fell. -/
def inWindow (s : State) (x : Exchange) : Bool :=
  decide (x.fallSlot.toNat ≥ 256) && decide (x.endSlot.toNat < budget s - 256)

/-- SET_FRAME (R660). -/
def setFrameAct : RopeAct := fun s x ws =>
  if !inWindow s x then (s, 9, [])
  else
    let (t, refused) := writeReg .rope Reg.sysFrame (ws.headD 0 + (frameNo s + 1 - x.fallFrame)) 0xF s
    if refused then (t, 7, [0]) else (t, 1, [])

def execSetFrame (x : Exchange) (s : State) : Host.Outcome State Fault Refusal :=
  .next (ropeExchange (· == 6) (· == 1) inFull setFrameAct x s)

def execTime (x : Exchange) (s : State) : Host.Outcome State Fault Refusal :=
  .next (ropeExchange (· == 7) (· == 0) inRaiseFull
    (fun s x _ => (s, 1, [x.fallFrame, BitVec.ofNat 32 x.fallSlot.toNat])) x s)

/-- LEAVE_LIMP (R656): the reply is SYS_MODE_REQ.RESULT. -/
def leaveLimpAct : RopeAct := fun s _ ws =>
  let t := regWrite s .rope Reg.sysModeReq (BitVec.ofNat 32 (0x4D * 2 ^ 24 + fld (ws.headD 0) 3 0))
  (t, 1, [BitVec.ofNat 32 (getF t Reg.sysModeReq 11 8)])

def execLeaveLimp (x : Exchange) (s : State) : Host.Outcome State Fault Refusal :=
  .next (ropeExchange (· == 8) (· == 1) inLimpFull leaveLimpAct x s)

/-- IMG_CHUNK (R557). -/
def imgChunkAct : RopeAct := fun s _ ws =>
  let t := loadChunk s true (ws.headD 0).toNat ((ws.drop 1).flatMap bytesOf)
  (t, 1, imgReply t)

def execImgChunk (x : Exchange) (s : State) : Host.Outcome State Fault Refusal :=
  .next (ropeExchange (· == 9) (fun n => decide (1 ≤ n) && decide (n ≤ 126)) inImage imgChunkAct x s)

def execImgState (x : Exchange) (s : State) : Host.Outcome State Fault Refusal :=
  .next (ropeExchange (· == 0x0A) (· == 0) inImage (fun s _ _ => (s, 1, imgReply s)) x s)

/-- ROPE_REPLY_READY (R650): the reply of the request that executed is ready. -/
def execRopeReplyReady (s : State) : Host.Outcome State Fault Refusal :=
  match s.rope.next with
  | some r => .next { s with rope := { s.rope with next := none, reply := r } }
  | none => .next s

end Sys2Proof.Machine
end

