-- ==== Sys2Proof/Machine/Twb.lean ====
section
/-! DEFINITION. The two-wire bus as target: command, pointer and bulk planes, wake, timeouts; and the steps of the TWBI
script (14_two_wire_bus.md, R678 to R707, R719). -/

namespace Sys2Proof.Machine

/-! ### Which transfers are answered (Table 14.4) -/

/-- The group addresses base + 0 and base + 1 are acknowledged. -/
def twbAnswers (s : State) : Bool :=
  !s.power.factory && s.power.mode != .off && s.power.mode != .dormant

/-- Codes 0x00 to 0x02, wherever the port answers. -/
def codeAlways (s : State) : Bool := twbAnswers s
/-- Code 0x03. -/
def codeMode (s : State) : Bool := twbAnswers s && s.power.mode != .raise
/-- Every other code of Table 14.3. -/
def codeFull (s : State) : Bool := twbAnswers s && pinModes s.power.mode

/-- A code that asks for PEC is taken (Table 14.2). -/
def pecTaken (s : State) (pec : Bool) : Bool := !pec || getB s Reg.twbCfg 28

/-- The transfer's acknowledge bits and the bytes that the device sent. -/
def twbSays (s : State) (acks : List Bool) (sent : List Byte) : State :=
  { s with twb := { s.twb with acks := acks, sent := sent } }

/-- Base address with the read bit (R685). -/
def baseByte (s : State) (rd : Bool) : Byte := BitVec.ofNat 8 (fld (twbAddrWord s) 6 0 * 2 + b2n rd)

def codeByte (code : Nat) (pec : Bool) : Byte := BitVec.ofNat 8 (code + 128 * b2n pec)

/-- n bytes of a read: data, its PEC if asked, then 0xFF (R685, R690). -/
def readBytes (s : State) (code : Nat) (pec : Bool) (data : List Byte) (n : Nat) : List Byte :=
  let all := if pec then
      data ++ [BitVec.ofNat 8 (crc8 ([baseByte s false, codeByte code pec, baseByte s true] ++ data))]
    else data
  (List.range n).map (fun i => all.getD i 0xFF)

/-- A read command (R684, R686, R687). -/
def twbRead (s : State) (code : Nat) (allowed : State → Bool) (pec : Bool) (data : State → List Byte) (n : Nat) : State :=
  if !twbAnswers s then twbSays s [false] []
  else if !allowed s || !pecTaken s pec then twbSays s [true, false] []
  else twbSays s [true, true, true] (readBytes s code pec (data s) n)

/-- Little-endian bytes of registers (R7). -/
def regBytes (s : State) (rs : List Nat) : List Byte := rs.flatMap (fun r => bytesOf (viewReg s .twb r))

def statusBytes (s : State) : List Byte := regBytes s [Reg.sysMode, Reg.sysStatus]

def execTwbCmdIdent (pec : Bool) (n : BitVec 6) (s : State) : Host.Outcome State Fault Refusal :=
  .next (twbRead s 0x00 codeAlways pec (fun s => regBytes s [Reg.idPart, Reg.idStep, Reg.idUniqueLo, Reg.idUniqueHi]) n.toNat)

/-- STATUS; the plain read returns its bytes without PEC (R684). -/
def execTwbCmdStatus (pec plain : Bool) (n : BitVec 6) (s : State) : Host.Outcome State Fault Refusal :=
  .next (
    if plain then
      (if twbAnswers s then twbSays s [true] (readBytes s 0x01 false (statusBytes s) n.toNat) else twbSays s [false] [])
    else twbRead s 0x01 codeAlways pec statusBytes n.toNat)

def execTwbCmdReason (pec : Bool) (n : BitVec 6) (s : State) : Host.Outcome State Fault Refusal :=
  .next (twbRead s 0x02 codeAlways pec (fun s => regBytes s [Reg.sysReason, Reg.sysStartCount, Reg.sysFrame]) n.toNat)

/-- The bytes of REPLY (Table 14.3, R692). -/
def replyData (s : State) : List Byte :=
  let (code, result, data) := match s.twb.slack with
    | some c => (c.1, (2 : Byte), [])
    | none => s.twb.reply
  [BitVec.ofNat 8 (2 + data.length), code, result] ++ data

def execTwbCmdReply (pec : Bool) (n : BitVec 6) (s : State) : Host.Outcome State Fault Refusal :=
  .next (twbRead s 0x0F codeFull pec replyData n.toNat)

/-! ### Write commands (R688, R689, R691) -/

/-- What a write command came to. -/
inductive TwbVerdict where
  | unanswered | codeNack | incomplete | pecBad | taken
  deriving DecidableEq, Repr

/-- The bytes that count as data: without PEC asked, a PEC byte is one more data byte. -/
def twbData (t : TwbWrite) : List Byte := if t.pec then t.data else t.data ++ t.pecByte.toList

/-- A write of a code whose data has need bytes, as far as its bytes tell. -/
def twbJudge (s : State) (code : Nat) (codeOk : Bool) (need : Nat) (t : TwbWrite) : TwbVerdict :=
  let data := twbData t
  if !twbAnswers s then .unanswered
  else if !codeOk || !pecTaken s t.pec then .codeNack
  else if need = 0 ∨ data.length ≠ need then .incomplete
  else if t.pec then
    match t.pecByte with
    | some p => if crc8 ([baseByte s false, codeByte code true] ++ data) = p.toNat then .taken else .pecBad
    | none => .incomplete
  else .taken

/-- The acknowledge bits of a write command. -/
def twbAcks (v : TwbVerdict) (need : Nat) (t : TwbWrite) : List Bool :=
  let data := (List.range (twbData t).length).map (fun i => decide (i < need))
  match v with
  | .unanswered => [false]
  | .codeNack => [true, false]
  | .incomplete => [true, true] ++ data ++ (if t.pec && t.pecByte.isSome then [false] else [])
  | .pecBad => [true, true] ++ data ++ [false]
  | .taken => [true, true] ++ data ++ (if t.pec then [true] else [])

/-- TWB_CMD_MODE (R686): the write of SYS_MODE_REQ. -/
def execTwbCmdMode (t : TwbWrite) (s : State) : Host.Outcome State Fault Refusal :=
  let v := twbJudge s 0x03 (codeMode s) 1 t
  let acks := twbAcks v 1 t
  .next (match v with
    | .taken =>
      let target := (t.data ++ t.pecByte.toList).headD 0
      twbSays (regWrite s .twb Reg.sysModeReq (BitVec.ofNat 32 (0x4D * 2 ^ 24 + target.toNat % 16))) acks []
    | .pecBad => twbSays (twbFlag s 4) acks []
    | _ => twbSays s acks [])

/-- A Slack-served command arrives (R689, R691): while one executes, its code is not acknowledged. -/
def slackCommand (s : State) (code : Nat) (need : Nat) (t : TwbWrite) : State :=
  if codeFull s && pecTaken s t.pec && s.twb.slack.isSome then
    twbSays (twbFlag (countUp s Reg.twbStatus 31 24) 3) [true, false] []
  else
    let v := twbJudge s code (codeFull s) need t
    let acks := twbAcks v need t
    let c := BitVec.ofNat 8 code
    match v with
    | .taken => twbSays { s with twb := { s.twb with slack := some (c, twbData t) } } acks []
    | .pecBad => twbSays (twbFlag { s with twb := { s.twb with reply := (c, 4, []) } } 4) acks []
    | _ => twbSays s acks []

/-- Bytes of a PARAM_SET: its count byte is 5 or 9. -/
def paramSetNeed (t : TwbWrite) : Nat :=
  match twbData t with
  | n :: _ => if n = 5 then 6 else if n = 9 then 10 else 0
  | [] => 0

def execParamSet (t : TwbWrite) (s : State) : Host.Outcome State Fault Refusal :=
  .next (slackCommand s 0x08 (paramSetNeed t) t)

def execParamGet (t : TwbWrite) (s : State) : Host.Outcome State Fault Refusal := .next (slackCommand s 0x09 2 t)

/-- PARAM_SET executes (R693): result OK, REFUSED or RANGE. -/
def paramSetRun (s : State) (d : List Byte) : State × Byte × List Byte :=
  match findParam s (at16 d 1) with
  | none => (s, 8, [])
  | some e =>
    let frame := if d.length > 6 then some (BitVec.ofNat 32 (at32 d 6)) else none
    let (t, ok) := paramStage s e (BitVec.ofNat 24 (at24 d 3)) frame
    (t, if ok then 1 else 7, [])

/-- The error result of a job whose handler was annulled (R442): log entry 90. -/
def jobError : Byte := BitVec.ofNat 8 (3 + Config.jobError % 7)

/-- PARAM_GET executes (R694). -/
def paramGetRun (s : State) (d : List Byte) : State × Byte × List Byte :=
  match findParam s (at16 d 0) with
  | none => (s, 8, [])
  | some e =>
    let (bad, t) := romFetch s false (tableRam s) e.cell
    if bad then (t, jobError, []) else (t, 1, (bytesOf (BitVec.ofNat 32 (tableCell s e.cell).toNat)).take 3)

/-- SLACK_COMMAND_DONE (R691): the ROM handler executes the command and stores its reply. -/
def execSlackCommandDone (s : State) : Host.Outcome State Fault Refusal :=
  match s.twb.slack with
  | none => .next s
  | some (code, d) =>
    if pinModes s.power.mode && slackBetween s then
      let (t, result, data) := if code = 0x08 then paramSetRun s d else paramGetRun s d
      .next { t with twb := { t.twb with slack := none, reply := (code, result, data) } }
    else .next s

/-! ### The pointer plane (R695 to R701) -/

/-- The page in use: 0x00 outside full service (R175). -/
def twbPage (s : State) : Nat := if pinModes s.power.mode then s.twb.page.toNat else 0

def ptrNext (p : Byte) : Byte := if p = 0xFF then 0x01 else p + 1

def setPtr (s : State) (p : Byte) : State := { s with twb := { s.twb with ptr := p } }

/-- A pointer-plane write in progress: the state, the bytes of the register so far, whether a byte was not
acknowledged, and the acknowledge bits. -/
structure PtrWrite where
  st   : State
  val  : Word
  be   : Nat
  dead : Bool
  acks : List Bool

/-- A byte that the mode does not let be written (Table 14.4). -/
def ptrByteRefused (s : State) : Bool :=
  match s.power.mode with
  | .run | .holdover | .workshop | .quiesce => false
  | .standby | .limp => !(0x18 ≤ s.twb.ptr.toNat && s.twb.ptr.toNat ≤ 0x1B)
  | .raise | .off | .dormant => true

/-- One byte written at the pointer (R695, R697, R698, R700). -/
def ptrByte (w : PtrWrite) (b : Byte) : PtrWrite :=
  let s := w.st
  let o := s.twb.ptr.toNat
  if w.dead || ptrByteRefused s then { w with dead := true, acks := w.acks ++ [false] }
  else
    let t := setPtr s (ptrNext s.twb.ptr)
    let ok := { w with st := t, val := 0, be := 0, acks := w.acks ++ [true] }
    if o = 0 then { ok with st := { t with twb := { t.twb with page := b } } }
    else if o < 4 ∨ twbPage s > 0x18 then ok
    else
      let k := o % 4
      let val := putFld w.val (8 * k + 7) (8 * k) b.toNat
      let be := w.be + 2 ^ k
      if k < 3 then { ok with val := val, be := be }
      else
        let (u, refused) := writeReg .twb (64 * twbPage s + o / 4) val be t
        if refused then { ok with st := setPtr u s.twb.ptr, dead := true, acks := w.acks ++ [false] }
        else { ok with st := u }

/-- POINTER_PLANE_WRITE: the first byte sets the pointer. -/
def execPointerPlaneWrite (data : List Byte) (s : State) : Host.Outcome State Fault Refusal :=
  if !twbAnswers s then .next (twbSays s [false] [])
  else
    match data with
    | [] => .next (twbSays s [true] [])
    | p :: bs =>
      let w := bs.foldl ptrByte ⟨setPtr s p, 0, 0, false, [true, true]⟩
      .next (twbSays w.st w.acks [])

/-- The register word at an offset of the page in use. -/
def ptrWord (s : State) (o : Nat) : Word :=
  let p := twbPage s
  if p > 0x18 then BitVec.ofNat 32 (if o / 4 = 0 then p else 0)
  else viewReg (if pinModes s.power.mode then s else { s with twb := { s.twb with page := 0 } }) .twb (64 * p + o / 4)

/-- n bytes read at the pointer (R695, R697, R699): the latch holds the word of the last +0 read. -/
def ptrRead (s : State) (latch : Option (Nat × Word)) : Nat → State × List Byte
  | 0 => (s, [])
  | n + 1 =>
    let o := s.twb.ptr.toNat
    let held := match latch with
      | some (g, w) => if g = o / 4 then some w else none
      | none => none
    let w := if o % 4 = 0 then ptrWord s o else held.getD (ptrWord s o)
    let t := if o % 4 = 0 ∧ o ≠ 0 ∧ twbPage s ≤ 0x18 then readEffect s .twb (64 * twbPage s + o / 4) else s
    let latch' := if o % 4 = 0 then some (o / 4, w) else if held.isSome then latch else none
    let (u, bs) := ptrRead (setPtr t (ptrNext t.twb.ptr)) latch' n
    (u, byteOf w (o % 4) :: bs)

/-- POINTER_PLANE_READ (R699). -/
def execPointerPlaneRead (n : BitVec 10) (s : State) : Host.Outcome State Fault Refusal :=
  if !twbAnswers s then .next (twbSays s [false] [])
  else
    let (t, bs) := ptrRead s none n.toNat
    .next (twbSays t [true] bs)

/-! ### The bulk plane (R560 to R565) -/

def bulkAnswers (s : State) : Bool := twbAnswers s && s.power.mode == .workshop

/-- BULK_CHUNK (R560, R561): late names the data byte, after the four of the offset, that the loader cannot take in time: it
is not acknowledged, and it and the rest are discarded. -/
def execBulkChunk (data : List Byte) (s : State) (late : Option Nat := none) : Host.Outcome State Fault Refusal :=
  if !bulkAnswers s then .next (twbSays s [false] [])
  else
    let taken := match late with
      | some k => data.take (4 + k)
      | none => data
    let t := if data.length < 4 then s else loadChunk s false (at32 data 0) (taken.drop 4)
    let nack := if taken.length < data.length then [false] else []
    .next (twbSays t (true :: (taken.map (fun _ => true) ++ nack)) [])

/-- BULK_STATE_READ (R562). -/
def execBulkStateRead (n : BitVec 6) (s : State) : Host.Outcome State Fault Refusal :=
  if !bulkAnswers s then .next (twbSays s [false] [])
  else
    let bytes := bytesOf (BitVec.ofNat 32 (loadNext s)) ++ [loadStateByte s]
    .next (twbSays s [true] ((List.range n.toNat).map (fun i => bytes.getD i 0xFF)))

/-! ### Wake and timeouts (R703, R706, R707) -/

/-- TWB_WAKE_ADDRESS (R703). -/
def execTwbWakeAddress (plane : BitVec 2) (s : State) : Host.Outcome State Fault Refusal :=
  if s.power.mode == .dormant && getB s Reg.pwrWakeEn 1 && decide (plane.toNat ≤ 2) then
    let nack := bit (twbAddrWord s) 8
    let t := wakeSources s 2
    .next (twbSays (if nack then t else twbFlag t 7) [!nack] [])
  else .next s

/-- TWB_SCL_LOW (R706). -/
def execTwbSclLow (s : State) : Host.Outcome State Fault Refusal :=
  if twbAnswers s && getB s Reg.twbTimeout 0 then .next (twbFlag (logHw s .twbSclLow 0) 5) else .next s

/-- TWB_SDA_LOW (R707). -/
def execTwbSdaLow (s : State) : Host.Outcome State Fault Refusal :=
  if twbAnswers s && getB s Reg.twbTimeout 1 then .next (twbFlag (logHw s .twbSdaLow 0) 6) else .next s

/-! ### The TWBI script (R545, R546, R719) -/

/-- The script's next step may start. -/
def twbiReady (s : State) (op : Nat) : Bool :=
  s.loader.twbiOn && s.twb.job.isNone && pinModes s.power.mode && !s.loader.twbi.isEmpty && at8 s.loader.twbi 0 == op

def twbiDrop (s : State) (n : Nat) : State := { s with loader := { s.loader with twbi := s.loader.twbi.drop n } }

/-- TWBI_WRITE: the step's bytes fill the buffer, and its transfer starts with PEC at 0. -/
def execTwbiWrite (s : State) : Host.Outcome State Fault Refusal :=
  if twbiReady s 1 && getB s Reg.twbCfg 29 then
    let script := s.loader.twbi
    let n := at8 script 2
    let t := (List.range n).foldl (fun s i => setCbufByte s i (script.getD (4 + i) 0)) s
    let job : TwbJob := { addr := BitVec.ofNat 7 (at8 script 1), wlen := n, rlen := 0, pec := false, tries := 0, script := true }
    .next (twbiDrop { t with twb := { t.twb with job := some job } } (up4 (4 + n)))
  else .next s

/-- TWBI_DELAY: its time is over. -/
def execTwbiDelay (s : State) : Host.Outcome State Fault Refusal :=
  if twbiReady s 2 then .next (twbiDrop s 4) else .next s

/-- TWBI_END. -/
def execTwbiEnd (s : State) : Host.Outcome State Fault Refusal :=
  if twbiReady s 0 then .next { s with loader := { s.loader with twbi := [], twbiOn := false } } else .next s

end Sys2Proof.Machine
end

