-- ==== Sys2Proof/Machine/Hal.lean ====
section
/-! DEFINITION. The Halyard port's commands: characters, LIN frames, the LIN micro-routine, sleep and wake
(15_halyard_port.md, R721 to R760; R245, R246, R260 to R262). -/

namespace Sys2Proof.Machine

/-! ### The port in the modes (R751, Table 4.8) -/

/-- The port serves its characters: in full, or as LIMP responder with the PLL locked. -/
def halServes (s : State) : Bool :=
  !s.power.factory && (pinModes s.power.mode || (s.power.mode == .limp && s.clk.locked && halMode s == 2))

def setPhase (s : State) (p : LinPhase) : State := { s with hal := { s.hal with phase := p } }

def halEntry (s : State) (i : Nat) : Option FrameEntry := s.hal.table[i]?

/-! ### Response data (Table 15.3) -/

/-- A cell of a PARAM entry as its value (R746 in reverse). -/
def paramValue (c : Cell) (w : Nat) (sg : Bool) : Nat :=
  let k := (if sg then 24 else 23) - 8 * w
  let fits := if sg then true else !c.msb
  if c.toNat % 2 ^ k = 0 ∧ fits = true then c.toNat / 2 ^ k % 2 ^ (8 * w) else Config.paramOut c.toNat w sg

def leBytes (v n : Nat) : List Byte := (List.range n).map (fun i => BitVec.ofNat 8 (v / 256 ^ i))

/-- The sinks with an open or short result. -/
def badSinks (s : State) : Nat := (List.range 24).countP (fun n => getF s (Reg.snkDiag n) 31 30 != 0)

/-- The bytes of an entry's kind. -/
def kindData (s : State) (e : FrameEntry) : List Byte :=
  let reason := getReg s Reg.sysReason
  match e.kind with
  | 3 => [BitVec.ofNat 8 (b2n s.hal.respErr), BitVec.ofNat 8 (statusByte s), BitVec.ofNat 8 (modeNo s.power.mode),
          BitVec.ofNat 8 (fld reason 7 0), BitVec.ofNat 8 (badSinks s)] ++ leBytes (frameNo s).toNat 3
  | 4 =>
    let v := match findParam s e.param with
      | some p => leBytes (paramValue (tableCell s p.cell) e.width e.isSigned) e.width
      | none => []
    List.replicate e.off 0 ++ v ++ List.replicate 8 0
  | 5 => bytesOf (viewReg s .rom Reg.idPart) ++ (bytesOf (viewReg s .rom Reg.idStep)).take 2
          ++ (bytesOf (viewReg s .rom Reg.idUniqueLo)).take 2
  | 6 => [fld reason 7 0, fld reason 15 8, fld reason 19 16, getF s Reg.sysStartCount 3 0, getF s Reg.sysStartCount 15 8,
          getF s Reg.pwrWakeSrc 7 0, getF s Reg.cltTaint 15 8, 0].map (BitVec.ofNat 8)
  | _ => []

/-- The parameter cell that an entry's response reads, if any. -/
def kindCell (s : State) (e : FrameEntry) : Option Nat :=
  if e.kind = 4 then (findParam s e.param).map (·.cell) else none

/-- Entry i of the response table is refreshed; it keeps its data where the parameter cannot be read (R442). -/
def respOne (s : State) (i : Nat) (e : FrameEntry) : State :=
  let fresh := (kindData s e).take e.len
  match kindCell s e with
  | none => { s with hal := { s.hal with resp := s.hal.resp ++ [fresh] } }
  | some a =>
    let old := s.hal.resp
    let (bad, t) := romFetch s false (tableRam s) a
    { t with hal := { t.hal with resp := t.hal.resp ++ [if bad then old.getD i fresh else fresh] } }

/-- The response table is refreshed (R745). -/
def respRefresh (s : State) : State :=
  let n := s.hal.resp.length
  let t := s.hal.table.zipIdx.foldl (fun s (e, i) => respOne s i e) s
  { t with hal := { t.hal with resp := t.hal.resp.drop n } }

/-! ### Checksums and frames (R738) -/

def lrcSum (bs : List Byte) : Nat := bs.foldl (fun a b => (a + b.toNat) % 256 + (a + b.toNat) / 256) 0

def checksum (classic : Bool) (pid : Byte) (data : List Byte) : Nat := 255 - lrcSum (if classic then data else pid :: data)

/-- The parity of a PID (R737). -/
def pidParity (pid : Byte) : Bool :=
  let b := fun i => pid.getLsbD i
  (b 6 == (b 0 ^^ b 1 ^^ b 2 ^^ b 4)) && (b 7 == !(b 1 ^^ b 3 ^^ b 4 ^^ b 5))

/-- A frame that matches an entry has completed without error: FRAME_OK and event 21. -/
def frameOk (s : State) (pid : Byte) : State :=
  postEvent (setB s Reg.halStatus 15 true) 21 (fun _ => BitVec.ofNat 24 pid.toNat)

/-- RESP_ERR, for a frame that matches an entry (R750). -/
def respError (s : State) (matched : Bool) : State :=
  if matched then { s with hal := { s.hal with respErr := true } } else s

/-- The last character of a frame that the port receives (R743, R749). -/
def frameEnd (s : State) (pid : Byte) (entry : Option Nat) (len : Nat) (bytes : List Byte) : State :=
  let classic := match entry with
    | some i => (halEntry s i).map (·.classic) == some true
    | none => true
  let good := (bytes.getD len 0).toNat == checksum classic pid (bytes.take len)
  let held := setPhase { s with hal := { s.hal with heard := true } } (.data pid entry len bytes)
  match entry with
  | none => if good && bytes.headD 1 == 0 then held
    else setPhase { s with hal := { s.hal with heard := s.hal.heard || good } } .wait
  | some _ => if good then frameOk held pid else setPhase (respError (halError s 10) true) .wait

/-! ### Characters (R726 to R734) -/

/-- The majority of three samples. -/
def majority (b : BitVec 3) : Bool := decide (popCount b.toNat 3 ≥ 2)

def charByte (c : CharSamples) : Byte :=
  BitVec.ofNat 8 ((List.range 8).foldl (fun acc i => acc + b2n (majority (vget c.data i 0)) * 2 ^ i) 0)

/-- The parity bit does not match. -/
def parityBad (s : State) (c : CharSamples) : Bool :=
  getB s Reg.halCfg 2 && (popCount (charByte c).toNat 8 + b2n (majority c.parity)) % 2 != b2n (getB s Reg.halCfg 3)

/-- A framing error is flagged, counted and logged (R729, R732). -/
def framingError (s : State) (b : Byte) : State := logHw (halError s 8) .halFraming (BitVec.ofNat 32 b.toNat)

/-- A character in UART mode. -/
def uartTake (s : State) (c : CharSamples) (b : Byte) (bad : Bool) : State :=
  if s.hal.rx.length ≥ 16 then halError s 14
  else
    let fresh := s.hal.rx.isEmpty
    let x := BitVec.ofNat 10 (b2n (parityBad s c) * 512 + b2n bad * 256 + b.toNat)
    let t := { s with hal := { s.hal with rx := s.hal.rx ++ [x] } }
    if fresh then postEvent t 21 (fun _ => 0) else t

/-- A character in LIN mode: a data byte of a frame that the port receives. -/
def linTake (s : State) (b : Byte) : State :=
  match s.hal.phase with
  | .data pid entry len bytes =>
    if bytes.length > len then s
    else if bytes.length = len then frameEnd s pid entry len (bytes ++ [b])
    else setPhase s (.data pid entry len (bytes ++ [b]))
  | .wait | .sync | .pid | .publish _ _ => s

/-- The frame in progress matches an entry. -/
def frameMatched (s : State) : Bool :=
  match s.hal.phase with
  | .data _ entry len bytes => entry.isSome && decide (bytes.length ≤ len)
  | .wait | .sync | .pid | .publish _ _ => false

/-- The frame in progress takes data bytes. -/
def frameTakes (s : State) : Bool :=
  match s.hal.phase with
  | .data _ _ len bytes => decide (bytes.length ≤ len)
  | .wait | .sync | .pid | .publish _ _ => false

/-- UART_CHARACTER (R726): what LRX brings between a break's characters, sync bytes and PIDs. -/
def execUartCharacter (c : CharSamples) (s : State) : Host.Outcome State Fault Refusal :=
  if !halServes s || majority c.start then .next s
  else
    let b := charByte c
    let bad := !majority c.stop
    match halMode s with
    | 1 => .next (uartTake (if bad then framingError s b else s) c b bad)
    | 2 =>
      if frameTakes s then
        .next (linTake (if bad then respError (framingError s b) (frameMatched s) else s) b)
      else .next s
    | _ => .next s

/-- CHARACTER_SENT (R733, R722). -/
def execCharacterSent (s : State) : Host.Outcome State Fault Refusal :=
  match s.hal.shift, s.hal.tx with
  | none, _ => .next s
  | some _, b :: rest => .next { s with hal := { s.hal with shift := some b, tx := rest } }
  | some _, [] =>
    let t := { s with hal := { s.hal with shift := none, txEmpty := true } }
    match t.hal.cfgPend with
    | some w => .next (setReg { t with hal := { t.hal with cfgPend := none } } Reg.halCfg w)
    | none => .next t

/-! ### Headers (R735 to R744) -/

def linLive (s : State) : Bool := halServes s && halMode s == 2

/-- LIN_BREAK (R735, R758). -/
def execLinBreak (bits : BitVec 8) (s : State) : Host.Outcome State Fault Refusal :=
  if linLive s && decide (getF s Reg.halLinCfg 3 0 ≤ bits.toNat) then
    .next { s with hal := { s.hal with phase := .sync, period := none, wake := .idle } }
  else .next s

/-- LIN_SYNC (R736, R732): clocks is the measured time of 8 bits; badStop says that the character's stop bit was 0. -/
def execLinSync (b : Byte) (clocks : BitVec 32) (s : State) (badStop : Bool := false) : Host.Outcome State Fault Refusal :=
  if linLive s && s.hal.phase == .sync then
    let s := if badStop then framingError s b else s
    let p := getF s Reg.halBaud 23 0
    let off := (Int.ofNat (2 * clocks.toNat) - Int.ofNat p).natAbs
    if b = 0x55 ∧ 50 * off ≤ p then
      .next { s with hal := { s.hal with
        phase := .pid, period := if getB s Reg.halLinCfg 8 then some (2 * clocks.toNat) else none } }
    else .next (setPhase (halError s 11) .wait)
  else .next s

/-- The phase that a PID leads to (R742, R749, R751). -/
def pidPhase (s : State) (pid : Byte) : LinPhase :=
  let id := pid.toNat % 64
  match s.hal.table.findIdx? (fun e => e.id == id), pinModes s.power.mode with
  | some i, full =>
    match halEntry s i with
    | some e =>
      if e.publish then (if full || e.kind == 3 || e.kind == 5 || e.kind == 6 then .publish pid i else .wait)
      else if full then .data pid (some i) e.len [] else .wait
    | none => .wait
  | none, full => if id = 0x3C ∧ full = true then .data pid none 8 [] else .wait

/-- LIN_PID (R737, R732, R750); badStop says that the character's stop bit was 0. -/
def execLinPid (pid : Byte) (s : State) (badStop : Bool := false) : Host.Outcome State Fault Refusal :=
  if linLive s && s.hal.phase == .pid then
    let s := { s with hal := { s.hal with lastPid := pid } }
    let s := if badStop then framingError s pid else s
    if pidParity pid then
      let s := respError s (badStop && (s.hal.table.findIdx? (fun e => e.id == pid.toNat % 64)).isSome)
      .next (setPhase (if s.power.mode == .limp then respRefresh s else s) (pidPhase s pid))
    else .next (setPhase (halError s 9) .wait)
  else .next s

/-- LIN_PUBLISH (R739, R744, R750): the response is sent, or abandoned at a bit error. -/
def execLinPublish (bitErr : Bool) (s : State) : Host.Outcome State Fault Refusal :=
  match s.hal.phase with
  | .publish pid i =>
    match halEntry s i with
    | none => .next s
    | some e =>
      if !linLive s then .next s
      else if bitErr then .next (setPhase (respError (halError s 12) true) .wait)
      else
        let data := s.hal.resp.getD i []
        let clears := e.kind == 3 && (data.headD 0).getLsbD 0
        let s := { s with hal := { s.hal with
          sent := data ++ [BitVec.ofNat 8 (checksum e.classic pid data)], heard := true,
          respErr := s.hal.respErr && !clears } }
        .next (setPhase (frameOk s pid) .wait)
  | .wait | .sync | .pid | .data _ _ _ _ => .next s

/-- NO_RESP (R743). -/
def execNoResp (s : State) : Host.Outcome State Fault Refusal :=
  match s.hal.phase with
  | .data _ entry len bytes =>
    if bytes.length > len then .next s
    else if entry.isSome then .next (setPhase (respError (halError s 13) true) .wait)
    else .next (setPhase s .wait)
  | .wait | .sync | .pid | .publish _ _ => .next s

/-! ### Complete frames (R746 to R749) -/

/-- The complete frame that waits for its action: its entry number and bytes. -/
def wholeFrame (s : State) : Option (Option Nat × List Byte) :=
  match s.hal.phase with
  | .data _ entry len bytes => if bytes.length > len then some (entry, bytes.take len) else none
  | .wait | .sync | .pid | .publish _ _ => none

/-- The complete frame's entry when it is of a kind. -/
def wholeEntry (s : State) (kind : Nat) : Option (Nat × FrameEntry × List Byte) :=
  match wholeFrame s with
  | some (some i, bytes) =>
    match halEntry s i with
    | some e => if e.kind == kind then some (i, e, bytes) else none
    | none => none
  | _ => none

/-- The cell of a PARAM_IN value (R746). -/
def paramInCell (e : FrameEntry) (bytes : List Byte) : Cell :=
  let v := leNat ((List.range e.width).map (fun k => bytes.getD (e.off + k) 0))
  BitVec.ofNat 24 (v * 2 ^ ((if e.isSigned then 24 else 23) - 8 * e.width))

/-- The handler stages and commits the value of an entry, or keeps it (R747). -/
def paramTry (s : State) (i : Nat) (v : Cell) : State :=
  let s := { s with hal := { s.hal with keep := s.hal.keep.filter (fun k => k.1 != i) } }
  match (halEntry s i).bind (fun e => findParam s e.param) with
  | none => s
  | some p =>
    let (t, ok) := paramStage s p v none
    if ok then t else { t with hal := { t.hal with keep := t.hal.keep ++ [(i, v)] } }

/-- PARAM_IN (R746). -/
def execParamIn (s : State) : Host.Outcome State Fault Refusal :=
  match wholeEntry s 1, pinModes s.power.mode with
  | some (i, e, bytes), true => .next (paramTry (setPhase s .wait) i (paramInCell e bytes))
  | _, _ => .next s

/-- PARAM_RETRY (R747): a Slack pass tries every kept value again. -/
def execParamRetry (s : State) : Host.Outcome State Fault Refusal :=
  if pinModes s.power.mode then .next (s.hal.keep.foldl (fun s k => paramTry s k.1 k.2) s) else .next s

/-- TRIGGER (R748). -/
def execTrigger (s : State) : Host.Outcome State Fault Refusal :=
  match wholeEntry s 2, pinModes s.power.mode with
  | some (_, e, bytes), true =>
    let b := bytes.getD e.off 0
    .next (setPhase { s with hal := { s.hal with trigA := b.getLsbD 0, trigB := b.getLsbD 1 } } .wait)
  | _, _ => .next s

/-- TRIGGER_TIMEOUT (R748). -/
def execTriggerTimeout (s : State) : Host.Outcome State Fault Refusal :=
  .next { s with hal := { s.hal with trigA := false, trigB := false } }

/-- The LIN sleep request (Table 5.11). -/
def linSleep (s : State) : State :=
  regWrite s .rom Reg.sysModeReq (BitVec.ofNat 32 (0x4D * 2 ^ 24 + getF s Reg.pwrDormantCfg 17 16 + 1))

/-- GO_TO_SLEEP (R749). -/
def execGoToSleep (s : State) : Host.Outcome State Fault Refusal :=
  match wholeFrame s, pinModes s.power.mode with
  | some (none, _), true => .next (linSleep (setPhase s .wait))
  | _, _ => .next s

/-- LIN_BUS_IDLE (R246). -/
def execLinBusIdle (s : State) : Host.Outcome State Fault Refusal :=
  if linLive s && pinModes s.power.mode && s.hal.heard && getB s Reg.pwrDormantCfg 18 then .next (linSleep s) else .next s

/-! ### The LIN wake-up signal (R260 to R262, R756 to R758) -/

/-- The bus counts as woken by the commander. -/
def linWoken (s : State) : State := setB { s with hal := { s.hal with wake := .idle, wakeDue := false } } Reg.pwrWakeSrc 10 true

/-- LIN_WAKE_SEND (R757): a write of HAL_WAKE with SEND at 1, or a signal that a wake made due. -/
def execLinWakeSend (w : Option RegWrite) (lrxDominant : Bool) (s : State) : Host.Outcome State Fault Refusal :=
  let s := match w with
    | some x => regWrite s x.src Reg.halWake (putBit x.val 31 true)
    | none => s
  if s.hal.wakeDue && pinModes s.power.mode && halMode s != 0 then
    .next (if lrxDominant then linWoken s else { s with hal := { s.hal with wake := .signal 1, wakeDue := false } })
  else .next s

/-- LIN_WAKE_END (R261). -/
def execLinWakeEnd (lrxDominant : Bool) (s : State) : Host.Outcome State Fault Refusal :=
  match s.hal.wake with
  | .signal n => .next (if halMode s == 0 then { s with hal := { s.hal with wake := .idle } } else if lrxDominant then linWoken s else { s with hal := { s.hal with wake := .waiting n } })
  | .idle | .waiting _ => .next s

/-- LIN_WAKE_RETRY (R262): 150 ms after a signal, or 1.5 s after the third of a block; none while the port is off (Table
15.1) or outside the modes that serve it (R751). -/
def execLinWakeRetry (lrxDominant : Bool) (s : State) : Host.Outcome State Fault Refusal :=
  match s.hal.wake with
  | .waiting n =>
    .next (if !pinModes s.power.mode || halMode s == 0 then { s with hal := { s.hal with wake := .idle } }
      else if lrxDominant then linWoken s
      else { s with hal := { s.hal with wake := .signal (if n ≥ 3 then 1 else n + 1) } })
  | .idle | .signal _ => .next s

end Sys2Proof.Machine
end

