-- ==== Sys2Proof/Machine/Audio.lean ====
section
/-! DEFINITION. Audio at the frame tick, converter states, underruns and overruns (16_audio_ports.md, R762 to R802;
R477, R512, R201). -/

namespace Sys2Proof.Machine

/-! ### Converter states (R786 to R788, R802) -/

/-- A converter is used: Port B runs, in full; Port A runs as clock slave. -/
def asrUsed (s : State) (out : Bool) : Bool :=
  !s.power.factory &&
    (if out then aOn s && audSlave (aCfg s) && s.power.mode != .off && s.power.mode != .dormant && s.power.mode != .standby
     else bOn s && pinModes s.power.mode)

def setAsr (s : State) (out : Bool) (a : Asr) : State :=
  { s with audio := if out then { s.audio with asrOut := a } else { s.audio with asrIn := a } }

/-- A converter takes a state; leaving LOCKED sets its LOST flag, with the AUDIO event (Table 19.5). -/
def asrMove (s : State) (out : Bool) (a : Asr) : State :=
  let was := (asrOf s out).st
  let t := setAsr s out a
  if was == .locked && a.st != .locked then raiseFlag t Reg.asrLock (if out then 13 else 12) 6 else t

/-- A converter that is not used is OFF. -/
def asrSettle (s : State) (out : Bool) : State :=
  if asrUsed s out then s
  else if (asrOf s out).st == .off then s
  else asrMove s out { asrOf s out with st := .off, held := 0, ramp := 64 }

/-- A ratio within 1/12 to 8 (R783), in the format of R791. -/
def ratioOk (r : Word) : Bool := decide (22369621 ≤ r.toNat) && decide (r.toNat ≤ 2 ^ 31)

/-- ASRC_ACQUIRING (R786). -/
def execAsrcAcquiring (out : Bool) (ratio : Word) (s : State) : Host.Outcome State Fault Refusal :=
  let a := asrOf s out
  if asrUsed s out && ratioOk ratio && (a.st == .off || a.st == .noClock) then
    .next (asrMove s out { a with st := .acquiring, ratio := ratio })
  else .next s

/-- ASRC_LOCKED (R786, R787). -/
def execAsrcLocked (out : Bool) (ratio : Word) (ms : Byte) (s : State) : Host.Outcome State Fault Refusal :=
  let a := asrOf s out
  if asrUsed s out && ratioOk ratio && a.st == .acquiring then
    .next (asrMove s out { a with st := .locked, ratio := ratio, ms := ms, ramp := 0 })
  else .next s

/-- ASRC_NO_CLOCK (R786). -/
def execAsrcNoClock (out : Bool) (s : State) : Host.Outcome State Fault Refusal :=
  let a := asrOf s out
  if asrUsed s out && a.st != .noClock then .next (asrMove s out { a with st := .noClock, ramp := 64 }) else .next s

/-- ASRC_PHASE_LOSS (R786). -/
def execAsrcPhaseLoss (out : Bool) (s : State) : Host.Outcome State Fault Refusal :=
  let a := asrOf s out
  if a.st == .locked then .next (asrMove s out { a with st := .acquiring, ramp := 64 }) else .next s

/-! ### Underruns and overruns (R796 to R798) -/

/-- An underrun at a port (0 A, 1 C, 2 B) and slot: flag, count and log. -/
def portUnderrun (s : State) (port slot : Nat) : State :=
  let letter := if port = 0 then 0xA else if port = 1 then 0xC else 0xB
  logHw (audFlag (countUp s Reg.audCounts (8 * port + 7) (8 * port)) port) .portUnderrun (BitVec.ofNat 32 (slot * 256 + letter))

/-- Port C runs (R772). -/
def cOn (s : State) : Bool := aOn s && getB s Reg.audCCfg 31

/-- CONVERTER_UNDERRUN (R797, R788): the output buffer was empty when Port A needed a sample, or the input buffer at the
frame tick. -/
def execConverterUnderrun (out : Bool) (s : State) : Host.Outcome State Fault Refusal :=
  if (asrOf s out).st != .locked then .next s
  else if out then
    let t := portUnderrun s 0 0
    .next (if cOn s then portUnderrun t 1 0 else t)
  else .next (portUnderrun s 2 0)

/-- PORT_OVERRUN (R798, R788). -/
def execPortOverrun (out : Bool) (s : State) : Host.Outcome State Fault Refusal :=
  if (asrOf s out).st != .locked then .next s
  else
    let t := audFlag (countUp s Reg.audCounts 31 24) (if out then 3 else 4)
    .next (logHw t .portOverrun (if out then 0xA else 0xB))

/-- The slots of Port A (or Port C) that the CHECK fields mark and that were not written in the ending frame (R796). -/
def unwritten (s : State) (portC : Bool) : List Nat :=
  let mask := if portC then getF s Reg.audCCfg 15 8 else getF s Reg.audASlots 15 8
  (List.range (audSlots (aCfg s))).filter (fun k =>
    nbit mask k && !s.audio.written.getLsbD (if portC then 8 + k else k))

/-- The underruns of a frame that ends in RUN or QUIESCE. -/
def checkUnderruns (s : State) : State :=
  let counts := (s.power.mode == .run || s.power.mode == .quiesce)
    && !(audSlave (aCfg s) && s.audio.asrOut.st != .locked)
  let s :=
    if !counts then s
    else
      let t := if aOn s then (unwritten s false).foldl (fun s k => portUnderrun s 0 k) s else s
      if cOn s then (unwritten s true).foldl (fun s k => portUnderrun s 1 k) t else t
  { s with audio := { s.audio with written := 0 } }

/-! ### Output (R477, R512, R764, R773, R777, R800) -/

/-- A linear scaling whose rounding the spec leaves open. -/
def openScale (num : Int) (den : Nat) : Int :=
  num / (den : Int) + (if num % (den : Int) ≠ 0 ∧ Config.scaleUp num den = true then 1 else 0)

/-- A sample under a gain word (R477). -/
def gainSample (g : Cell) (x : Cell) : Cell :=
  if gainMuted g then 0 else satCell (roundHalfUp (x.toInt * Int.ofNat (g.toNat % 65536)) 32768)

/-- The cell that a slot of some width carries (R764). -/
def slotCell (width : Nat) (x : Cell) : Cell :=
  if width = 16 then
    let v := roundHalfUp x.toInt 256
    toBits 24 ((if v > 32767 then 32767 else v) * 256)
  else x

/-- Slot-channel ch is sent: its port runs, and the slot exists and is active (R772, R773). -/
def slotActive (s : State) (ch : Nat) : Bool :=
  let k := ch % 8
  decide (k < audSlots (aCfg s)) &&
    (if ch < 8 then aOn s && nbit (getF s Reg.audASlots 7 0) k else cOn s && nbit (getF s Reg.audCCfg 7 0) k)

/-- The output cells (Table 6.6). -/
def outCells (s : State) : List Cell := (List.range 16).map (fun ch => sget zero s.mem.port (0x100 + ch))

/-- What slot-channel ch sends in this frame: the gain word, then the mute and the fade (R512). -/
def outSample (s : State) (ch : Nat) (x : Cell) : Cell :=
  if !slotActive s ch then 0
  else
    let g := gainApplied (activeGain s ch) (vget s.splice.gains ch .steady)
    let m := gainApplied (if s.audio.muting then 0x800000 else 0x008000) (vget s.audio.mutes ch .steady)
    let (num, den) := fadeFactor s
    slotCell (audWidth (aCfg s)) (toBits 24 (openScale ((gainSample m (gainSample g x)).toInt * Int.ofNat num) den))

/-- The output cells pass to the ports; outside the full modes the ports send 0. -/
def audioOut (s : State) : State :=
  let cells := outCells s
  if pinModes s.power.mode then
    let s := gainsTick s cells
    { s with audio := { s.audio with
        out := (List.range 16).foldl (fun v ch => vset v ch (outSample s ch (cells.getD ch 0))) s.audio.out } }
  else { s with audio := { s.audio with out := Vector.replicate 16 0 } }

/-- The fade moves on one frame (R201, R801). -/
def fadeTick (s : State) : State :=
  let n := fadeFrames s
  let f := match s.audio.fade with
    | .down num den pos => Fade.down num den (min (pos + 1) n)
    | .up num den pos => if pos + 1 ≥ n then .full else .up num den (pos + 1)
    | .full => .full
    | .kept num den => .kept num den
  { s with audio := { s.audio with fade := f } }

/-! ### Input (R765, R774, R775, R779, R795) -/

/-- An input converter's output under the rise of R787. -/
def riseSample (a : Asr) (x : Cell) : Cell :=
  if a.ramp ≥ 64 then x else toBits 24 (openScale (x.toInt * Int.ofNat (a.ramp + 1)) 64)

def audbIn (s : State) (t : TickIn) : State :=
  let a := s.audio.asrIn
  if a.st != .locked then (List.range 8).foldl (fun s k => setPort s (0x110 + k) 0) s
  else if t.heldIn = 0 then s
  else
    let n := audSlots (bCfg s)
    let s := (List.range 8).foldl (fun s k =>
      setPort s (0x110 + k) (if k < n then riseSample a (vget t.audB k 0) else 0)) s
    setAsr s false { a with ramp := min (a.ramp + 1) 64 }

/-- The SENSE cells (R774, R799); a slave whose frame sync is not seen brings no slot. -/
def senseIn (s : State) (t : TickIn) : State :=
  let on := aOn s && pinModes s.power.mode
  let heard := !audSlave (aCfg s) || s.audio.aEdges
  (List.range 8).foldl (fun s k =>
    let x := vget t.sense k 0
    let v := if !heard then sget zero s.mem.port (0x120 + k) else if audWidth (aCfg s) = 16 then x &&& 0xFFFF00 else x
    setPort s (0x120 + k)
      (if on && getB s Reg.audACfg 19 && nbit (getF s Reg.audASlots 23 16) k && decide (k < audSlots (aCfg s)) then v else 0)) s

/-- A converter tracks its ratio and buffer. -/
def asrTrack (s : State) (out : Bool) (ratio : Word) (held : Nat) : State :=
  let a := asrOf s out
  match a.st with
  | .acquiring | .locked => setAsr s out { a with ratio := if ratioOk ratio then ratio else a.ratio, held := min held 32 }
  | .off | .noClock => setAsr s out { a with held := 0 }

/-- The converter cells (Table 16.8). -/
def asrCells (s : State) (out : Bool) : State :=
  let base := if out then 0x134 else 0x130
  let a := asrOf s out
  let live := a.st == .acquiring || a.st == .locked
  let s := setPort s base (BitVec.ofNat 24 ((asrRatioWord s out).toNat / 256))
  let s := setPort s (base + 1) (if live then toBits 24 (asrDev s out) else 0)
  let s := setPort s (base + 2) (BitVec.ofNat 24 (asrStateNo a.st + 4 * b2n (asrBand s out)))
  setPort s (base + 3) (BitVec.ofNat 24 a.held)

/-- Audio at the frame tick (Table 1.3, order 4). -/
def audioTick (s : State) (t : TickIn) : State :=
  let s := { s with audio := { s.audio with aEdges := syncSeen (aCfg s) t.aSync, bEdges := syncSeen (bCfg s) t.bSync } }
  let s := asrSettle (asrSettle s false) true
  let s := asrTrack (asrTrack s false t.ratioIn t.heldIn.toNat) true t.ratioOut t.heldOut.toNat
  let s := senseIn (audbIn (fadeTick (audioOut (checkUnderruns s))) t) t
  asrCells (asrCells s false) true

end Sys2Proof.Machine
end

