-- ==== Sys2Proof/Machine/RomLay.lean ====
section
/-! DEFINITION. What the ROM Lays do (Table 3.4, R129 to R133): light at light ticks, in thirds of a millisecond, and
sound in each frame. -/

namespace Sys2Proof.Machine

/-! ### Segments (R140, Table 3.7) -/

/-- n segments of k sinks each. -/
def segsOf (k n : Nat) : List (List Nat) := (List.range n).map (fun i => (List.range k).map (fun j => i * k + j))

/-- The animated segments and the fixed group of a grouping code. -/
def segments : Nat → List (List Nat) × List Nat
  | 0 => (segsOf 1 24, [])
  | 1 => (segsOf 2 12, [])
  | 2 => (segsOf 3 8, [])
  | 3 => (segsOf 4 6, [])
  | 4 => (segsOf 1 16, (List.range 8).map (· + 16))
  | 5 => (segsOf 1 12, (List.range 12).map (· + 12))
  | 6 => (segsOf 1 8, (List.range 16).map (· + 8))
  | 7 => (segsOf 3 8, [])
  | 8 => (segsOf 1 12, [])
  | 9 => (segsOf 1 8, [])
  | 10 => (segsOf 1 16, [])
  | 11 => (segsOf 6 4, [])
  | 12 => (segsOf 12 2, [])
  | 13 => (segsOf 8 3, [])
  | 14 => (segsOf 12 1, [])
  | _ => (segsOf 24 1, [])

/-- All segments in sweep order, the fixed group last. -/
def allSegments (s : State) : List (List Nat) :=
  let (anim, fixed) := segments (groupCode s)
  if fixed.isEmpty then anim else anim ++ [fixed]

/-- The segment of a sink, if it lies in one. -/
def segmentOf (segs : List (List Nat)) (n : Nat) : Option Nat := segs.findIdx? (·.contains n)

/-! ### Levels (R141, Table 3.8) -/

/-- The code that the pattern gives input k on sink n; a sink outside every entry takes 255. -/
def levelCode (s : State) (n k : Nat) : Nat :=
  let code := fun j =>
    let (c, m) := fsEntry (fsPattern s) j
    if nbit m n then c else 0
  if code 0 = 0 ∧ code 1 = 0 ∧ code 2 = 0 then 255 else code k

def stopLevel (s : State) (n : Nat) : Nat := 256 * levelCode s n 1

/-- The level of ROM Lay 0: the largest of the asserted inputs. -/
def plainLevel (s : State) (n : Nat) : Nat :=
  [0, 1, 2].foldl (fun l k => if s.pins.fs.getLsbD k then max l (256 * levelCode s n k) else l) 0

/-! ### Triggers (R132, R133) -/

def gpioHigh (s : State) (n : Nat) : Bool := bit (viewReg s .rom Reg.gpioIn) n

def triggerPins (s : State) : Option (Nat × Nat) :=
  if isManagerRole (role s) then (if getF s Reg.ropCfg 7 6 = 0 then none else some (7, 6)) else some (0, 1)

def triggerA (s : State) : Bool :=
  s.hal.trigA || match triggerPins s with
    | some (a, _) => gpioHigh s a
    | none => false

def triggerB (s : State) : Bool :=
  s.hal.trigB || match triggerPins s with
    | some (_, b) => gpioHigh s b
    | none => false

/-! ### Light -/

/-- The ROM Lay that acts: ROM Lay 10 without Port B acts as ROM Lay 0. -/
def actingRom (s : State) (code : Nat) : Nat := if code = 10 ∧ !cfg1PortB (codeInForce s 2) then 0 else code

def isSweep (c : Nat) : Bool := c == 1 || c == 2 || c == 3 || c == 9

/-- Inputs and timers at a light tick. -/
def romSense (s : State) (c : Nat) : RomLay :=
  let r := s.rom
  let fs2 := s.pins.fs.getLsbD 2
  let a := triggerA s
  let rise := a && !r.trigA
  { r with
    fs := s.pins.fs, trigA := a, ticks := r.ticks + 1, cellsAge := r.cellsAge + 1,
    sweep := if !fs2 then none else if !r.fs.getLsbD 2 then some 0 else r.sweep.map (· + 1),
    trig :=
      if c = 7 then (if s.pins.fs.getLsbD 1 && triggerB s then some ((r.trig.map (· + 1)).getD 0) else none)
      else if rise || (c == 13 && r.ticks == 0) then some 0 else r.trig.map (· + 1) }

/-- The order of a segment in a sweep, and the steps of the sweep (Table 3.4). That a centre-out sweep over an odd number of
segments begins with the single middle one, in (n + 1) / 2 steps, is a DESIGN CHOICE: log entry 82. -/
def sweepRank (c segs i : Nat) : Nat × Nat :=
  if c = 2 then (segs - 1 - i, segs)
  else if c = 3 then
    ((if segs % 2 = 0 then (if i ≥ segs / 2 then i - segs / 2 else segs / 2 - 1 - i)
      else if i ≥ segs / 2 then i - segs / 2 else segs / 2 - i), (segs + 1) / 2)
  else (i, segs)

/-- A level between off and full. -/
def shaped (c e seg level : Nat) : Nat := level * min (Config.romShape c e seg) 256 / 256

/-- The rise of ROM Lay 4, e light ticks after the trigger: segment i of n rises in its turn of the 1.2 s, from what it
shows to its level, and never falls back (log entry 14). -/
def risen (shown e i n level : Nat) : Nat :=
  if e * n < 3600 * i then 0
  else if e * n ≥ 3600 * (i + 1) then level
  else max (min shown level) (shaped 4 e i level)

/-- The pulses of ROM Lay 5: each begins off, reaches the level once, and falls back (log entry 14). -/
def pulsed (shown e level : Nat) : Nat :=
  let q := e % 1200
  let p := Config.romPeak % 1199 + 1
  if q = 0 then 0
  else if q = p then level
  else if q < p then max (min shown level) (shaped 5 q 0 level)
  else min shown (shaped 5 q 0 level)

/-- The peak reaches the bar segment that stands d × 3 dB below full scale: (peak / 2^23)^20 ≥ 10^(-3d). -/
def peakReaches (peak d : Nat) : Bool := decide (2 ^ 460 ≤ peak ^ 20 * 10 ^ (3 * d))

/-- The target of sink n, which lies in segment i of all. That the bar of ROM Lay 10 grows from the lowest-numbered segment
is a DESIGN CHOICE: log entry 83. -/
def romTarget (s : State) (c n : Nat) : Nat :=
  let r := s.rom
  let base := plainLevel s n
  let anim := (segments (groupCode s)).1
  let all := allSegments s
  let i := (segmentOf all n).getD 0
  if isSweep c then
    match segmentOf anim n, r.sweep with
    | some j, some e =>
      let (rank, steps) := sweepRank c anim.length j
      if e * steps ≥ 450 * rank then 256 * levelCode s n 2 else 0
    | some _, none => 0
    | none, _ => base
  else
    match c, r.trig with
    | 4, some e =>
      if e < 3600 then max base (risen (vget r.shown n 0) e i all.length (stopLevel s n))
      else if e < 33600 then max base (256 * levelCode s n 0)
      else base
    | 5, some e =>
      if e < 2400 then max base (pulsed (vget r.shown n 0) e (stopLevel s n))
      else if e < 32400 then max base (256 * levelCode s n 0)
      else base
    | 6, some e =>
      if base ≠ 0 then base
      else if e < 90000 then stopLevel s n / 2
      else if e < 96000 then min (vget r.shown n 0) (shaped c e 0 (stopLevel s n / 2))
      else 0
    | 7, some e => if levelCode s n 1 = 0 then base else if e / 375 % 2 = 0 then stopLevel s n else 0
    | 10, _ =>
      if s.pins.fs.getLsbD 1 then stopLevel s n
      else if peakReaches r.peak (all.length - i) then 256 * Config.romBar.toNat
      else 0
    | 13, some e =>
      let enabled := (List.range 24).filter (fun k => getB s (Reg.snkCfg k) 31)
      let low := (stopLevel s n + 5) / 10
      match enabled[e / 300]? with
      | some k => if k ≠ n then 0 else if e % 300 < 150 then low else stopLevel s n
      | none => if enabled.contains n then low else 0
    | _, _ => base

/-- ROM Lays that follow the FS inputs with the glide of ROM Lay 0 where they follow them. -/
def romGlides (s : State) (c n : Nat) : Bool :=
  if isSweep c then (segmentOf (segments (groupCode s)).1 n).isNone
  else
    match c, s.rom.trig with
    | 4, some e => decide (e ≥ 33600)
    | 5, some e => decide (e ≥ 32400)
    | 6, some e => plainLevel s n != 0 || decide (e ≥ 96000)
    | 7, some _ => levelCode s n 1 == 0
    | 10, _ | 13, _ | 14, _ => false
    | _, _ => true

/-- One sink at a light tick: its glide, or its target at once. -/
def romSink (s : State) (c n : Nat) : RomLay :=
  let r := s.rom
  let t := romTarget s c n
  let shown := vget r.shown n 0
  if !romGlides s c n || r.ticks == 1 then
    { r with shown := vset r.shown n t, target := vset r.target n t, glideK := vset r.glideK n 16 }
  else
    let fresh := vget r.target n 0 != t
    let k := min ((if fresh then 0 else vget r.glideK n 16) + 1) 16
    let a := if fresh then shown else vget r.start n 0
    { r with start := vset r.start n a, target := vset r.target n t, glideK := vset r.glideK n k,
             shown := vset r.shown n ((a * (16 - k) + t * k) / 16) }

/-- The Lay writes a level as CODE and light cell: the smallest code that reaches it, and the duty it leaves. -/
def romWrite (s : State) (n level : Nat) : State :=
  let code := (level + 255) / 256
  if code = 0 then setPort s n 0
  else
    let duty := min ((2 * 65535 * level + 256 * code) / (2 * 256 * code)) 65535
    setPort (setF s (Reg.snkCur n) 7 0 code) n (if duty = 65535 then 0x7FFFFF else BitVec.ofNat 24 (duty * 128))

/-- ROM Lay 12 (Table 13.8): the Deck's values from the frame that cell 0x018 holds. -/
def romCells (s0 : State) : State :=
  let (bad, s) := romFetch s0 true .deck 0x18
  let due := decide ((frameNo s - (sget zero s.mem.deck 0x18).setWidth 32).toNat % 2 ^ 24 < 2 ^ 23)
  if !bad && due then
    (List.range 24).foldl (fun s n =>
      let (bad, s) := romFetch s true .deck n
      if bad then s else setPort (setF s (Reg.snkCur n) 7 0 (levelCode s n 1)) n (sget zero s.mem.deck n)) s
  else s

/-- The light of the ROM Lay, written before a light tick. -/
def romLight (s : State) : State :=
  match s.rom.code with
  | none => s
  | some code =>
    let c := actingRom s code
    let s := { s with rom := romSense s c }
    let t :=
      if c = 12 ∧ s.rom.cellsAge ≤ 300 then romCells s
      else
        let used := (allSegments s).flatten
        let s := used.foldl (fun s n => { s with rom := romSink s c n }) s
        used.foldl (fun s n => romWrite s n (vget s.rom.shown n 0)) s
    { t with rom := { t.rom with peak := 0 } }

/-! ### Sound -/

/-- Frames since the sound of a ROM Lay began (Table 3.4): from the trigger, for half a second; while trigger B is
asserted; throughout; while an FS input is asserted. -/
def romTone (s : State) (c : Nat) : Option Nat :=
  let on := (s.rom.tone.map (· + 1)).getD 0
  match c with
  | 4 | 11 =>
    if triggerA s && !s.rom.toneTrig then some 0
    else (s.rom.tone.map (· + 1)).filter (fun k => decide (k < 500 * rateKhz s))
  | 8 | 9 => if triggerB s then some on else none
  | 13 => some on
  | 14 => if s.pins.fs != 0 then some on else none
  | _ => none

/-- The sine of q quarter turns / 2^30, q up to 2^30, times 2^40: the Taylor terms to x^15. -/
def sineQuarter (q : Nat) : Int :=
  let one : Int := 2 ^ 40
  let x : Int := 1727108826179 * (q : Int) / 2 ^ 30
  let x2 := x * x / one
  x * ([14 * 15, 12 * 13, 10 * 11, 8 * 9, 6 * 7, 4 * 5, 2 * 3].foldl (fun (h : Int) (d : Int) => one - x2 * h / d / one) one) / one

/-- The sine of a phase in 2^-32 of a turn, times 2^40. -/
def sine (phase : Nat) : Int :=
  let p := phase % 2 ^ 32
  let q := p % 2 ^ 30
  match p / 2 ^ 30 with
  | 0 => sineQuarter q
  | 1 => sineQuarter (2 ^ 30 - q)
  | 2 => -sineQuarter q
  | _ => -sineQuarter (2 ^ 30 - q)

/-- The phase, k frames after its start, of a tone of f Hz. -/
def tonePhase (s : State) (f k : Nat) : Nat := f * k * 2 ^ 32 / (1000 * rateKhz s)

/-- A wave of open form held within an amplitude. -/
def waveIn (top : Nat) (v : Int) : Int := max (-(top : Int)) (min v (top : Int))

/-- The sample of a ROM Lay's sound, k frames after it began (Table 3.4), full scale taken as 2^23: −12, −6 and −20 dBFS are
2,107,123, 4,204,263 and 838,861 (log entry 14). -/
def romSample (s : State) (c k : Nat) : Cell :=
  toBits 24 (match c with
    | 4 | 11 => waveIn 2107123 (Config.romWave (tonePhase s (if k < 250 * rateKhz s then 660 else 990) k % 2 ^ 32) 0 0)
    | 8 | 9 => waveIn 4204263 (Config.romWave (tonePhase s 500 k % 2 ^ 32) (tonePhase s 1200 k % 2 ^ 32) (tonePhase s 4 k % 2 ^ 32))
    | _ => roundHalfUp (838861 * sine (Config.romPhase + tonePhase s 1000 k)) (2 ^ 40))

def absCell (c : Cell) : Nat := c.toInt.natAbs

/-- The audio of the ROM Lay in a frame: it writes every output cell, silence where no sound plays. -/
def romSound (s : State) : State :=
  match s.rom.code with
  | none => s
  | some code =>
    let c := actingRom s code
    let b := fun (k : Nat) => sget zero s.mem.port (0x110 + k)
    let tone := romTone s c
    let sample := fun k =>
      if c = 10 then b k
      else
        match tone with
        | some n => if cfg1Amp (codeInForce s 2) then romSample s c n else 0
        | none => 0
    let s := { s with rom := { s.rom with
        peak := max s.rom.peak (max (absCell (b 0)) (absCell (b 1))), tone := tone, toneTrig := triggerA s } }
    let s := setPort (setPort s 0x100 (sample 0)) 0x101 (sample 1)
    { s with audio := { s.audio with written := BitVec.allOnes 16 } }

end Sys2Proof.Machine
end

