-- ==== Sys2Proof/Machine/RopeService.lean ====
section
/-! DEFINITION. The ROM manager service of the rope (Table 13.8, R663 to R665, R670 to R672), the values of ROM Lay 11
(Table 3.4), and the ends of transfers (R639). -/

namespace Sys2Proof.Machine

/-! ### What the service knows of a code -/

/-- The ROM manager service runs (Table 13.9). -/
def svcRuns (s : State) : Bool := getB s Reg.ropCfg 31 && getB s Reg.ropCfg 3 && pinModes s.power.mode

/-- PRESENT of a code (R671). -/
def codePresent (s : State) (c : Byte) : Bool := getB s (Reg.ropPresent (c.toNat / 32)) (c.toNat % 32)

/-- What the service knew of a code is forgotten, and what it still had to send there is dropped. -/
def svcForget (s : State) (c : Byte) : State :=
  let v := s.rope.svc
  { s with rope := { s.rope with svc := { v with
      todo := v.todo.filter (·.1 != c), asks := v.asks.filter (·.code != c), ready := v.ready.filter (· != c),
      numbered := v.numbered.filter (· != c), offsets := v.offsets.filter (·.1 != c), strip := v.strip.filter (·.1 != c) } } }

/-- A finding gives the NODE or the identity of another. -/
def foundClash (before : List Found) (f : Byte × Word × Word) : Bool :=
  before.any (fun g => match g.reply with
    | some r => r.1 == f.1 || r.2 == f.2
    | none => false)

/-- Enumeration found another NODE at a code, or a NODE or identity that an earlier code gives (R672): the code gets no
image and no frame number. -/
def svcBarred (s : State) (c : Byte) : Bool :=
  match s.rope.found.find? (·.code == c) with
  | some ⟨_, some r, _⟩ => r.1 != c || foundClash (s.rope.found.takeWhile (·.code != c)) r
  | _ => false

/-- Bytes of the bundle that ROP_IMG names (R664). -/
def svcImage (s : State) (at_ n : Nat) : List Byte :=
  let base := getF s Reg.ropImg 31 12 * 4096 + at_
  (List.range n).map (fun i => extByte s (getF s Reg.ropImg 1 1) (base + i))

/-- The offset reached at a code, and whether it still needs the image: NOT_READY, under MS code 7 or 8 (R664). -/
def svcOffset (s : State) (c : Byte) : Nat := ((s.rope.svc.offsets.find? (·.1 == c)).map (·.2)).getD 0

def svcImageDue (s : State) (c : Byte) : Bool :=
  getB s Reg.ropImg 0 && !s.rope.svc.ready.contains c && !svcBarred s c
    && (match s.rope.found.find? (·.code == c) with
      | some f => f.reply.isSome && (f.ms == 7 || f.ms == 8)
      | none => false)
    && decide (svcOffset s c < imgTotal (svcImage s 0 headLen))

/-! ### Requests -/

/-- Opcode and payload of a task at a code (Table 13.7). The frame number is that of the frame in which the exchange begins
(R661). -/
def svcPayload (s : State) (c : Byte) : SvcTask → Nat × List Word
  | .chunk =>
    let o := svcOffset s c
    let n := min 500 (imgTotal (svcImage s 0 headLen) - o)
    let b := svcImage s o n
    (9, BitVec.ofNat 32 o :: (List.range ((n + 3) / 4)).map (fun k => BitVec.ofNat 32 (leNat ((b.drop (4 * k)).take 4))))
  | .setFrame => (6, [frameNo s])
  | .status => (2, [])
  | .time => (7, [])
  | .nudge count => (4, [0x601, BitVec.ofNat 32 (toBits 16 count).toNat])
  | .cells values => (5, 0 :: values.map (fun v => BitVec.ofNat 32 v.toNat))
  | .again _ => (0, [])

/-- A request asks for CRC words where the rope owns WHP1 (Table 13.9). -/
def svcFlags (s : State) : Nat := if getB s Reg.ropCfg 27 then 5 else 0

/-- The request of a task: a new one takes the next sequence byte, a resent one RETRY (R642, R670). -/
def svcMake (s : State) (c : Byte) (t : SvcTask) : SvcAsk × Byte :=
  let seq := s.rope.svc.seq
  match t with
  | .again a => ({ a with words := (a.words.take 1).map (fun h => putBit h 1 true) ++ a.words.drop 1, slot := 256 }, seq)
  | t =>
    let (op, p) := svcPayload s c t
    (⟨c, BitVec.ofNat 32 (op * 2 ^ 24 + p.length * 65536 + seq.toNat * 256 + svcFlags s) :: p, 0, 256⟩, seq + 1)

/-- The words clocked: the request with its CRC word, and room for a reply of 6 words. -/
def svcOut (s : State) (a : SvcAsk) : List Word :=
  let w := if getB s Reg.ropCfg 27 then a.words ++ [crcWord a.words] else a.words
  w ++ List.replicate (8 - w.length) 0

/-- The exchange can be made: a valid protocol profile that holds it, and a code within the select width (R632, R637). -/
def svcFits (s : State) (c : Byte) (words : Nat) : Bool :=
  let p := codeProfile s c.toNat
  !bit p 31 && profileOk p && decide (c.toNat ≤ topCode s) && decide (32 * words ≤ fld p 11 0 + 1)

/-- The next present code of the polling round, up to HIGHEST. -/
def svcNextCode (s : State) : Option Byte :=
  ((List.range 255).map (fun k => BitVec.ofNat 8 ((s.rope.svc.code.toNat + k) % 255 + 1))).find? (fun c =>
    decide (c.toNat ≤ getF s Reg.ropCfg 15 8) && codePresent s c)

/-- The tasks of one code in a polling round (Table 13.8). -/
def svcRound (s : State) : State :=
  match svcNextCode s with
  | none => s
  | some c =>
    let tasks := (if svcImageDue s c then [.chunk] else []) ++ (if getF s Reg.ropCfg 29 28 = 1 then [.time] else [])
      ++ [SvcTask.status]
    { s with rope := { s.rope with svc := { s.rope.svc with code := c, todo := tasks.map (fun t => (c, t)) } } }

/-! ### ROM Lay 11 (Table 3.4) -/

/-- The level of segment p of the n segments of the strip: ROM Lay 4 while trigger A runs it, ROM Lay 1 while FS2 is
asserted, else ROM Lay 0 as the manager shows it (log entry 70). -/
def stripLevel (s : State) (n p : Nat) : Nat :=
  match s.rom.trig, s.rom.sweep with
  | some e, sweep =>
    if e < 3600 then max (vget s.rom.shown 0 0) (risen 0 e p n (stopLevel s 0))
    else if e < 33600 then max (vget s.rom.shown 0 0) (256 * levelCode s 0 0)
    else if sweep.isSome then (if sweep.getD 0 * n ≥ 450 * p then 256 * levelCode s 0 2 else 0)
    else vget s.rom.shown 0 0
  | none, some e => if e * n ≥ 450 * p then 256 * levelCode s 0 2 else 0
  | none, none => vget s.rom.shown 0 0

/-- The Deck value of a level: its part of stop level (log entry 60). -/
def stripCell (s : State) (level : Nat) : Cell :=
  let top := stopLevel s 0
  BitVec.ofNat 24 (min ((2 * 0x7FFFFF * level + top) / (2 * top)) 0x7FFFFF)

def isCells : SvcTask → Bool
  | .cells _ => true
  | .chunk | .setFrame | .status | .time | .nudge _ | .again _ => false

/-- Every change of ROM Lay 11 becomes a CELLS request to its worker, all of them naming one frame. -/
def stripTick (s : State) : State :=
  if s.rom.code == some 11 then
    let codes := ((List.range 255).map (fun k => BitVec.ofNat 8 (k + 1))).filter (codePresent s)
    let n := 24 * codes.length
    let named : Cell := BitVec.ofNat 24 ((frameNo s).toNat + Config.romLead (frameNo s).toNat)
    codes.zipIdx.foldl (fun s (c, k) =>
      let vals := (List.range 24).map (fun j => stripCell s (stripLevel s n (24 * k + j)))
      let v := s.rope.svc
      if v.strip.contains (c, vals) then s
      else { s with rope := { s.rope with svc := { v with
        strip := v.strip.filter (·.1 != c) ++ [(c, vals)],
        todo := (v.todo.filter (fun t => !(t.1 == c && isCells t.2)))
          ++ [(c, .cells (vals ++ [named]))] } } }) s
  else s

/-! ### An exchange of the service -/

/-- The service starts its next exchange on an idle rope, with RSS# falling at slot 256 of the frame (R660, R661): log
entry 60. -/
def svcTick (s : State) : State :=
  if !svcRuns s then s
  else
    let s := stripTick s
    if !s.rope.wire.isEmpty then s
    else
      let s := if s.rope.svc.todo.isEmpty then svcRound s else s
      match s.rope.svc.todo with
      | [] => s
      | (c, t) :: rest =>
        let (ask, seq) := svcMake s c t
        let out := svcOut s ask
        let v := { s.rope.svc with todo := rest }
        if !svcFits s c out.length then { s with rope := { s.rope with svc := v } }
        else
          let numbered := if t = .setFrame then v.numbered ++ [c] else v.numbered
          let s := ropStamp s (frameNo s).toNat 256
          { s with rope := { s.rope with
              wire := [.service ask out], lastCode := c, fallTime := s.clock.time + 256, sent := out,
              svc := { v with seq := seq, numbered := numbered } } }

/-- The offset of a worker from the two stamps (R663). -/
def svcDelta (s : State) (m w : Nat) : Int :=
  let b := budget s
  let r := (m + b - w % b) % b
  if r ≥ b / 2 then (r : Int) - (b : Int) else (r : Int)

def svcTodo (s : State) (c : Byte) (ts : List SvcTask) : State :=
  { s with rope := { s.rope with svc := { s.rope.svc with todo := ts.map (fun t => (c, t)) ++ s.rope.svc.todo } } }

/-- What the service does with a good reply to request p. -/
def svcGood (s : State) (p : SvcAsk) (rx : List Word) : State :=
  let c := p.code
  let v := s.rope.svc
  let ok := fld (rx.headD 0) 23 16 == 1
  let len := fld (rx.headD 0) 31 24
  match fld (p.words.headD 0) 31 24 with
  | 2 =>
    if v.ready.contains c && !v.numbered.contains c && !svcBarred s c then svcTodo s c [.setFrame, .status] else s
  | 6 => if ok then s else { s with rope := { s.rope with svc := { v with numbered := v.numbered.filter (· != c) } } }
  | 7 =>
    let d := svcDelta s p.slot (fld (rx.getD 2 0) 13 0)
    if ok && decide (2 ≤ len) && d != 0 then svcTodo s c [.nudge (-d)] else s
  | 9 =>
    if ok && decide (2 ≤ len) then
      { s with rope := { s.rope with svc := { v with
          offsets := v.offsets.filter (·.1 != c) ++ [(c, (rx.getD 1 0).toNat)] } } }
    else s
  | _ => s

/-- The reply to request p is a failure (R670). -/
def svcBad (s : State) (p : SvcAsk) (words : Nat) (rx : List Word) : Bool :=
  let w := rx.headD 0
  [0, 2, 3, 4].contains (fld w 23 16) || byteOf w 1 != byteOf (p.words.headD 0) 1
    || (getB s Reg.ropCfg 27 && replyCrcBad (fun i => rx.getD i 0) words)

/-- An exchange of the service ends: the reply it brings is that of the request before it at the code (R644, R670). -/
def svcReply (s : State) (ask : SvcAsk) (words : Nat) (rx : List Word) : State :=
  let c := ask.code
  let v := s.rope.svc
  let ready := v.ready.filter (· != c) ++ (if bit (rx.headD 0) 0 then [c] else [])
  let s := { s with rope := { s.rope with svc := { v with ready := ready, asks := v.asks.filter (·.code != c) ++ [ask] } } }
  match v.asks.find? (·.code == c) with
  | none => s
  | some p =>
    if svcBad s p words rx then
      let s := if getB s Reg.ropCfg 27 && replyCrcBad (fun i => rx.getD i 0) words then ropFlag s 10 else s
      if p.tries ≥ 3 then setB (svcForget s c) (Reg.ropPresent (c.toNat / 32)) (c.toNat % 32) false
      else svcTodo s c [.again { p with tries := p.tries + 1 }]
    else svcGood s p rx

/-! ### The end of a transfer (R639) -/

/-- XFER_DONE (R639, R670): the transfer in progress ends with the words received; the next one starts. -/
def execXferDone (rx : List Word) (s : State) : Host.Outcome State Fault Refusal :=
  match s.rope.wire with
  | [] => .next s
  | .feed ch _ _ :: rest =>
    let s := setChan s ch { chan s ch with sending := false }
    .next (wireStart { s with rope := { s.rope with wire := rest } })
  | .service ask out :: rest =>
    let s := replyLatency { s with rope := { s.rope with wire := rest } } ask.code (rx.headD 0) out
    .next (wireStart (svcReply s ask out.length rx))
  | .xfer code raw words width receives rchk out :: rest =>
    let s := { s with rope := { s.rope with wire := rest } }
    let s := if receives then storeRx s words width rx else s
    let s := if raw then s else replyLatency s code (ropWord s true 0) out
    let s := if rchk && rxCrcBad s words then ropFlag s 10 else s
    let s := postEvent (setB s Reg.ropStatus 8 true) 17 (fun _ => BitVec.ofNat 24 code.toNat)
    .next (wireStart s)

/-! ### Enumeration (R671, R672) -/

/-- ROP_FAULT names a code of R672. -/
def foundFault (s : State) (code : Byte) : State := setF s Reg.ropFault 31 16 code.toNat

/-- One code of an enumeration; the findings at the other codes stand. -/
def enumOne (s : State) (f : Found) : State :=
  let c := f.code.toNat
  let others := s.rope.found.filter (fun g => g.code != f.code)
  let s := { s with rope := { s.rope with found := others ++ [f] } }
  let s := if f.reply.isSome && getB s (Reg.ropPresent (c / 32)) (c % 32) then s else svcForget s f.code
  let s := setB s (Reg.ropPresent (c / 32)) (c % 32) f.reply.isSome
  match f.reply with
  | none => s
  | some r =>
    let s := if r.1 == f.code then s else foundFault (ropFlag s 12) f.code
    if foundClash others r then foundFault (ropFlag s 11) f.code else s

/-- ENUMERATION (R671, R672): by the ROM manager service, of codes 1 to HIGHEST. -/
def execEnumeration (found : List Found) (s : State) : Host.Outcome State Fault Refusal :=
  if getB s Reg.ropCfg 31 && getB s Reg.ropCfg 3 && pinModes s.power.mode then
    .next ((found.filter (fun f =>
      decide (1 ≤ f.code.toNat) && decide (f.code.toNat ≤ getF s Reg.ropCfg 15 8))).foldl enumOne s)
  else .next s

end Sys2Proof.Machine
end

