-- ==== Sys2Proof/Machine/LightTick.lean ====
section
/-! DEFINITION. The light tick (R48, R49) and what else the last frame tick brings to the same clock edge (Table 1.3). -/

namespace Sys2Proof.Machine

/-- QUIESCE is complete (R203): mutes, light fade and Reel engine. -/
def quiesceDone (s : State) : Bool :=
  s.power.mode == .quiesce && s.audio.mutes.toList.all (fun g => !gainBusy g) && decide (s.light.fade ≥ 64)
    && (List.range 8).all (fun ch => (chan s ch).st != .running)

def quietCheck (s : State) : State :=
  if quiesceDone s then
    { s with clock := { s.clock with quietDue := true }, lay := { s.lay with inLay := false, romEnd := none } }
  else s

/-- The light tick (Table 1.3, order 5; R447, R616, R745). -/
def lightTick (s : State) : State :=
  let s := holdCarry s
  if s.clock.lightDue then
    let s := { s with clock := { s.clock with lightDue := false } }
    let runs := s.power.mode == .run || s.power.mode == .quiesce
    let s := if runs && s.light.handover != some 0 then romLight s else s
    let s := lightLatch s
    quietCheck (if pinModes s.power.mode then respRefresh (feedTicks s) else s)
  else s

/-- What the frame tick brings to its clock edge, before any instruction of the frame issues (R22): entry to HOLDOVER, the
light tick, the end of QUIESCE. -/
def tickEdge (s : State) : State := quiesceLeave (lightTick s)

end Sys2Proof.Machine
end

