-- ==== Sys2Proof/Machine/LayCore.lean ====
section
/-! DEFINITION. How an instruction issues: fetch check, translation, stall, slot end, writes, control flow, annulment
(07_lay_machine.md; 08_instruction_set.md, R429; 09_faults_and_cleat.md, R430 to R443). -/

namespace Sys2Proof.Machine

/-! ### Instruction words -/

/-- The first word of an instruction (Tables 8.1, 8.2), as ILLEGAL_OP logs it. -/
def firstWord (opc : Nat) : Form → Word
  | .short aux x y => BitVec.ofNat 32 (opc % 32 * 2 ^ 26 + aux.toNat * 2 ^ 24 + x.toNat * 2 ^ 12 + y.toNat)
  | .long fp lane xs rnd sat trk c1 fm _ _ =>
    BitVec.ofNat 32 (2 ^ 31 + opc % 64 * 2 ^ 25 + fp.toNat * 2 ^ 23 + lane.toNat * 2 ^ 21 + b2n xs * 2 ^ 20
      + rnd.toNat * 2 ^ 18 + sat.toNat * 2 ^ 16 + b2n trk * 2 ^ 15 + c1.toNat * 8 + fm.toNat)
  | .reserved w => w

def isLong : Form → Bool
  | .short _ _ _ => false
  | .long _ _ _ _ _ _ _ _ _ _ => true
  | .reserved _ => true

/-- Words of the instruction (R381). -/
def formLen (f : Form) : Nat := if isLong f then 2 else 1

/-- Lanes of a lane-form code, counted from 0 (Table 8.8). -/
def lanesOf (code : Nat) : Nat := if code = 0 then 1 else if code = 1 then 2 else 4

/-- The modifiers in force (R404, Table 8.8): a long form's own, or MODE's. -/
def modsOf (c : Ctx) (f : Form) : Mods :=
  let m := c.mode.toNat
  let ml := lanesOf (m / 8)
  let mr := nbit m 2
  let ms := nbit m 1
  let mi := nbit m 0
  match f with
  | .short _ _ _ | .reserved _ => ⟨ml, false, mr, ms, false, mi⟩
  | .long _ lane xs rnd sat trk _ _ _ _ =>
    ⟨if lane = 0 then ml else lanesOf (lane.toNat - 1), xs, if rnd = 0 then mr else rnd == 2,
     if sat = 0 then ms else sat == 1, trk, mi⟩

/-- Reserved fields and opcodes that make any long form illegal (R402, R409). -/
def formOk : Form → Bool
  | .short _ _ _ => true
  | .long fp _ _ rnd sat _ _ _ _ _ => fp != 3 && rnd != 3 && sat != 3
  | .reserved _ => false

/-- Destination, first and second source of a long form (R386). -/
def longRoles : Form → Opnd × Opnd × Opnd
  | .short _ x y => (compact x, compact x, compact y)
  | .reserved _ => (.bad, .bad, .bad)
  | .long fp _ _ _ _ _ c1 fm fpl c2 =>
    let full := fullOpnd fm fpl
    if fp = 0 then (full, compact c1, compact c2)
    else if fp = 1 then (compact c1, full, compact c2)
    else (compact c1, compact c2, full)

/-! ### Control flow -/

/-- What an instruction does to control flow beside going on. -/
structure Ctl where
  branch : Option Branch := none
  hitch  : Option Hitch := none
  mode   : Option ModeSet := none
  /-- The program address set instead (END in a step run, R209). -/
  pcTo   : Option PAddr := none
  deriving DecidableEq, Repr

/-- Whether the instruction at a, len words long, occupies address x. -/
def occupies (a : PAddr) (len : Nat) (x : PAddr) : Bool := x == a || (len == 2 && x == a + 1)

/-- The next instruction in sequence and the Hitch levels, innermost first, after the instruction at a (R371, R372, R382):
each level whose body it ends loops back or ends, and a level inside that is active elsewhere stays (R377). When such a
level stays, it keeps its place among those that are left (DESIGN CHOICE, log 91). -/
def seqNext : List Hitch → PAddr → Nat → PAddr × List Hitch
  | [], a, len => (a + BitVec.ofNat 13 len, [])
  | h :: hs, a, len =>
    if occupies a len h.last then
      if h.left > 1 then (h.first, { h with left := h.left - 1 } :: hs) else seqNext hs a len
    else
      let (n, out) := seqNext hs a len
      (n, h :: out)

/-- The instruction is the last of an active body (R440). -/
def endsBody (c : Ctx) (len : Nat) : Bool := c.hitch.any (fun h => occupies c.pc len h.last)

/-- A taken B<cc> that is the last instruction of bodies, or whose delay slot is, ends them all (R375). -/
def dropEnding (hs : List Hitch) (a : PAddr) (len : Nat) : List Hitch := hs.filter (fun h => !occupies a len h.last)

/-- A taken B<cc> whose target lies outside a body ends that level and every level inside it (R376). -/
def dropLeft (hs : List Hitch) (t : PAddr) : List Hitch :=
  (hs.reverse.takeWhile (fun h => decide (h.first.toNat ≤ t.toNat) && decide (t.toNat ≤ h.last.toNat))).reverse

/-- The MODE that the masked fields give (R408). -/
def applyMode (mode : BitVec 5) (ms : ModeSet) : BitVec 5 :=
  let pick := fun (on : Bool) (v old : Nat) => if on then v else old
  let v := ms.vals.toNat
  let o := mode.toNat
  BitVec.ofNat 5 (pick (ms.mask.getLsbD 3) (v / 8) (o / 8) * 8
    + pick (ms.mask.getLsbD 2) (v / 4 % 2) (o / 4 % 2) * 4
    + pick (ms.mask.getLsbD 1) (v / 2 % 2) (o / 2 % 2) * 2
    + pick (ms.mask.getLsbD 0) (v % 2) (o % 2))

/-- MODE after the instruction: a MODE before it takes effect now, this one waits for its shadow (R360, R361). -/
def advanceMode (c : Ctx) (ctl : Ctl) : Ctx :=
  let c := match c.shadow with
    | some ms => { c with mode := applyMode c.mode ms }
    | none => c
  { c with shadow := ctl.mode }

/-- Control flow in sequence, with the Hitch levels that end or loop back here. -/
def advanceSeq (c : Ctx) (len : Nat) : Ctx :=
  let (n, hs) := seqNext c.hitch c.pc len
  { c with pc := n, hitch := hs }

/-- Control flow after a delay slot of a taken branch (R363, R366, R375 to R377). -/
def advanceTaken (c : Ctx) (len : Nat) (b : Branch) : Ctx :=
  let (ret, hs) := seqNext c.hitch c.pc len
  { c with
    pc := b.target, branch := none,
    hitch := if b.isB then dropLeft (dropEnding c.hitch c.pc len) b.target else hs,
    coil := if b.isCall then ret :: c.coil.drop 1 else c.coil }

/-- Control flow after an instruction of len words at c.pc (R363 to R377), but for a program address set instead. -/
def advanceFlow (c : Ctx) (len : Nat) (ctl : Ctl) : Ctx :=
  match c.branch with
  | some b => if b.taken then advanceTaken c len b else { advanceSeq c len with branch := none }
  | none =>
    match ctl.branch, ctl.hitch with
    | some b, _ =>
      if b.isB && b.taken then { c with pc := c.pc + 1, branch := some b, hitch := dropEnding c.hitch c.pc len }
      else { advanceSeq c len with branch := some b }
    | none, some h => { c with pc := c.pc + BitVec.ofNat 13 len, hitch := h :: c.hitch }
    | none, none => advanceSeq c len

/-- Control flow and MODE after an instruction of len words at c.pc. -/
def advance (c : Ctx) (len : Nat) (ctl : Ctl) : Ctx :=
  let c := advanceFlow (advanceMode c ctl) len ctl
  match ctl.pcTo with
  | some a => { c with pc := a }
  | none => c

/-! ### Issue -/

/-- What an instruction is after its operands are resolved: the state after its reads, slot end and writes, and its
control flow. -/
abbrev Effect := State → State × Ctl

/-- An instruction ready to issue. -/
structure Issue where
  word : Word
  len  : Nat
  /-- Legality, translation and checks, in the order of R437; then the effect in the issue slot. -/
  plan : Run Effect

/-- A ROM micro-routine waits and takes over now: your Slack program stands between two instructions, outside a delay
slot and a MODE shadow, and every multiply it issued has completed (R328). -/
def romTakes (s : State) : Bool := s.twb.slack.isSome && slackBetween s

/-- Your Slack program may issue: it was started, EN is 1, it has not yielded, no ROM micro-routine takes its place, and
the mode runs it (R27, R326 to R328, R425). -/
def slackIssues (s : State) : Bool :=
  s.lay.slackOn && getB s Reg.laySlackEntry 31 && !s.lay.yielded && !romTakes s && slackMode s.power.mode

/-- The context that issues in the current slot: the Lay before the fence while it runs, else your Slack program. Nothing
issues after the frame's last slot (R21, R27, R65), nor while a ROM Lay runs. -/
def issuer (s : State) : Option Bool :=
  if s.power.factory || tickDue s || decide (s.clock.slot ≥ s.clock.frameLen) || romRuns s then none
  else if s.lay.inLay then (if s.clock.slot < fence s then some true else none)
  else if slackIssues s then some false
  else none

/-- A step run counts one instruction (R206, R208, R210): at 0 it ends, DONE is set and the Lay stops. A STEP that the
instruction wrote itself governs (R213). -/
def stepCount (s : State) : State :=
  if s.lay.stepping then
    let left := if s.lay.stepWrote then getF s Reg.layCtrl 11 0 else getF s Reg.layCtrl 11 0 - 1
    let s := { setF s Reg.layCtrl 11 0 left with lay := { s.lay with stepWrote := false } }
    if left = 0 then
      setB { s with lay := { s.lay with stepping := false, inLay := false } } Reg.layCtrl 12 true
    else s
  else s

/-- The largest Lay Coil depth of the frame is kept (Table 7.9). -/
def noteCoil (s : State) : State :=
  { s with lay := { s.lay with coilMax := max s.lay.coilMax s.lay.lay.coil.length } }

/-- An instruction has issued: control flow moves on. -/
def finish (s : State) (lay : Bool) (len : Nat) (ctl : Ctl) : State :=
  let s := setCtx s lay (advance (ctxOf s lay) len ctl)
  let s := { s with lay := { s.lay with corrNow := false } }
  if lay then stepCount (noteCoil s) else slackReadsEnd s

/-- The log entry of an annulled instruction (R436 to R441). -/
def annulItem (s : State) (lay : Bool) (len : Nat) (code : FaultCode) (detail : Word) : LogItem :=
  let c := ctxOf s lay
  { code := code, ctx := if lay then .lay else .slack, ds := c.branch.isSome, mp := c.shadow.isSome,
    le := endsBody c len, slot := s.clock.slot,
    pc := match c.branch with
      | some b => b.addr
      | none => c.pc,
    frame := frameNo s, detail := detail }

/-- An instruction is annulled in its issue slot (R431, R432, R444): stalls stay spent, nothing else is done, its
fault is queued before those of the same core clock that no instruction found (R456), a Lay instruction taints the frame, and control flow goes on. -/
def annul (s : State) (lay : Bool) (len : Nat) (code : FaultCode) (detail : Word) (va : Option Nat) : State :=
  let it := annulItem s lay len code detail
  let s := match va with
    | some a => noteMapFault s lay code a
    | none => s
  let place := (logStep s).cleat.queue.length
  let s := logInsert (passSlots s 1) place it
  let s := if lay then { s with lay := { s.lay with tainted := true } } else s
  finish s lay len {}

/-- The fetch of the instruction's words is checked (Table 6.2). -/
def fetchCheck (lay : Bool) (len : Nat) : Run Unit := do
  let s ← readSt
  let c := ctxOf s lay
  checkEcc (progRam s) c.pc.toNat
  if len = 2 then checkEcc (progRam s) (c.pc + 1).toNat

/-- The instruction's stalls have used up the slots of its context: the Lay stops at the fence (R43, R44, R208); your
Slack program is pre-empted at the frame tick and issues the instruction afresh (R22, R28). -/
def outOfSlots (s : State) (lay abandoned : Bool) : State :=
  let s := { s with lay := { s.lay with corrNow := false } }
  if lay then layStopAtFence s abandoned else s

/-- The instruction at the pc issues (R429): what the frame tick brought is carried out first (R22), the fetch is checked,
operands are resolved with their stalls, sources are read in the slot after the last stall, results are written at its
end, and control flow goes on. -/
def issue (s0 : State) (mk : Bool → Ctx → Issue) : State :=
  let s := tickEdge s0
  match issuer s with
  | none => s
  | some lay =>
    let i := mk lay (ctxOf s lay)
    let long1FFF : Bool := i.len == 2 && (ctxOf s lay).pc == 0x1FFF
    let acc : Run Effect := do
      fetchCheck lay (if long1FFF then 1 else i.len)
      if long1FFF then stopWith .illegalOp i.word.toNat
      i.plan
    match acc.run.run { st := s, stall := 0 } with
    | (.ok eff, w) =>
      let s := passSlots w.st w.stall
      if s.clock.slot ≥ slotLimit s lay then outOfSlots s lay false
      else
        let (s, ctl) := eff s
        finish s lay i.len ctl
    | (.error (.fault code detail va), w) =>
      let s := passSlots w.st w.stall
      if s.clock.slot ≥ slotLimit s lay then outOfSlots s lay false
      else annul s lay i.len code detail va
    | (.error .abandon, w) => outOfSlots (passSlots w.st w.stall) lay true

/-- An instruction that is illegal whatever its operands hold. -/
def illegal (opc : Nat) (f : Form) : Run Effect := stopWith .illegalOp (firstWord opc f).toNat

/-- A legality check of R402, R364 or R424. -/
def require (opc : Nat) (f : Form) (ok : Bool) : Run Unit := do
  if !ok then stopWith .illegalOp (firstWord opc f).toNat

end Sys2Proof.Machine
end

