-- ==== Sys2Proof/Machine/LayData.lean ====
section
/-! DEFINITION. Meanings of the data instructions (R411 to R421, Tables 8.9, 8.10, 8.12). -/

namespace Sys2Proof.Machine

/-- Destinations on which the track modifier acts (R406). -/
def trackable : Loc → Bool
  | .deck _ => true
  | .strand _ => true
  | .ext _ _ _ => true
  | .port off => decide (off < 0x18) || (decide (0x100 ≤ off) && decide (off < 0x110))
  | _ => false

/-- The W1C flags of register r. -/
def w1cMask (r : Nat) : Word :=
  match regRow r with
  | none => 0
  | some row => row.fields.foldl (fun m f => match f.access with
      | .w1c _ => putBit m f.lo true
      | .rw | .rws | .rwl => m) 0

/-- The W1C flags of the destination that hardware sets in the instruction's own core clock, from state s at its start: the
set wins over the instruction's clear (R13). Flags of MAP_ECC_STATUS are set by the instruction's reads (R273). -/
def wonFlags (s : State) (dst : Option Loc) : Word :=
  match dst with
  | some (.winLow r) =>
    if r = Reg.mapEccStatus then (if s.lay.corrNow then 1 else 0)
    else getReg (passSlots (setReg s r (getReg s r &&& ~~~(w1cMask r))) 1) r &&& w1cMask r
  | _ => 0

/-- A write latch whose bits [31:24] leave the flags of won alone. -/
def maskLatch (won : Word) (c : Ctx) : Ctx :=
  { c with wlatch := c.wlatch.map (fun e => (e.1, e.2 &&& ~~~(byteOf won 3))) }

/-- A cell result written at the end of the slot: post-modifies, flags (none of them when F is the destination,
R401), the destination, and tracking (R355, R396, R397). A flag that hardware sets in the same core clock stays set (R13). -/
def writeResult (s : State) (lay : Bool) (m : Mods) (posts : List (Nat × Cell)) (dst : Option Loc) (res : Res24) : State :=
  let won := wonFlags s dst
  let s := passSlots s 1
  let c := maskLatch won (applyPosts (ctxOf s lay) posts)
  let c := if dst == some (.reg 0x18) then c else { c with f := applyFlags c.f res.fx }
  let s := setCtx s lay c
  match dst with
  | none => s
  | some l =>
    let s := writeLoc s lay m.int l (res.r &&& ~~~(won.setWidth 24))
    if m.trk && trackable l then setCtx s lay (trackStore (ctxOf s lay) res.r) else s

/-- The S that whole-accumulator sources raise (R403). -/
def withS (res : Res24) (s : Bool) : Res24 := { res with fx := { res.fx with s := res.fx.s || s } }

/-- The operands of a data instruction in either form (R386, Table 8.10): destination, first and second source. -/
def aluRoles (unary dest : Bool) (f : Form) : Option Opnd × Opnd × Option Opnd :=
  let (d, o1, o2) := longRoles f
  match f with
  | .short _ x y =>
    if unary then (some (compact x), compact y, none)
    else (if dest then some (compact x) else none, compact x, some (compact y))
  | .long _ _ _ _ _ _ _ _ _ _ =>
    (if dest then some d else none, o1, if unary then none else some o2)
  | .reserved _ => (if dest then some d else none, o1, if unary then none else some o2)

def optOk (o : Option Opnd) : Bool := (o.map opndOk).getD true
def optDst (o : Option Opnd) : Bool := (o.map dstOk).getD true
def optPosts (c : Ctx) (o : Option Opnd) : List (Nat × Cell) := (o.map (postsOf c)).getD []

def aluUnary : Alu → Bool
  | .mov | .neg | .abs | .not => true
  | _ => false

def aluDest : Alu → Bool
  | .cmp | .tst => false
  | _ => true

/-- A data instruction of R411 with one or two sources. -/
def aluPlan (op : Alu) (opc : Nat) (f : Form) (lay : Bool) (c : Ctx) : Run Effect := do
  let m := modsOf c f
  let (d, o1, o2) := aluRoles (aluUnary op) (aluDest op) f
  require opc f (formOk f && opndOk o1 && optOk o2 && optDst d && decide (fidMults (o1 :: o2.toList) ≤ 4))
  let l1 ← locOf lay c .read o1 0
  let l2 ← match o2 with
    | some o => locOf lay c .read o 0
    | none => pure Loc.nothing
  let ld ← match d with
    | some o => do let l ← locOf lay c .write o 0
                   pure (some l)
    | none => pure none
  let posts := postsOf c o1 ++ optPosts c o2 ++ optPosts c d
  return fun s =>
    let sat := locSats s lay m l1 || locSats s lay m l2
    let (a, s) := readLoc s lay m l1
    let (b, s) := readLoc s lay m l2
    (writeResult s lay m posts ld (withS (aluRes op a b (intValue l2 b) m.sat) sat), {})

def execAlu (op : Alu) (opc : Nat) (f : Form) (s : State) : State :=
  issue s (fun lay c => ⟨firstWord opc f, formLen f, aluPlan op opc f lay c⟩)

/-- An instruction of the short form alone with no operands to resolve. -/
def execPlain (opc : Nat) (f : Form) (ok : Bool → Ctx → Bool) (eff : Bool → Effect) (s : State) : State :=
  issue s (fun lay c => ⟨firstWord opc f, formLen f, do
    require opc f (!isLong f && ok lay c)
    return eff lay⟩)

/-- NOP (R409). -/
def execNop (f : Form) (s : State) : Host.Outcome State Fault Refusal :=
  .next (execPlain 0x00 f (fun _ _ => true) (fun _ s => (passSlots s 1, {})) s)
/-- MOV (R411). -/
def execMov (f : Form) (s : State) : Host.Outcome State Fault Refusal := .next (execAlu .mov 0x01 f s)
/-- ADD (R411). -/
def execAdd (f : Form) (s : State) : Host.Outcome State Fault Refusal := .next (execAlu .add 0x02 f s)
/-- SUB (R411). -/
def execSub (f : Form) (s : State) : Host.Outcome State Fault Refusal := .next (execAlu .sub 0x03 f s)
/-- NEG (R411). -/
def execNeg (f : Form) (s : State) : Host.Outcome State Fault Refusal := .next (execAlu .neg 0x04 f s)
/-- ABS (R411). -/
def execAbs (f : Form) (s : State) : Host.Outcome State Fault Refusal := .next (execAlu .abs 0x05 f s)
/-- AND (R411). -/
def execAnd (f : Form) (s : State) : Host.Outcome State Fault Refusal := .next (execAlu .and 0x06 f s)
/-- OR (R411). -/
def execOr (f : Form) (s : State) : Host.Outcome State Fault Refusal := .next (execAlu .or 0x07 f s)
/-- XOR (R411). -/
def execXor (f : Form) (s : State) : Host.Outcome State Fault Refusal := .next (execAlu .xor 0x08 f s)
/-- NOT (R411). -/
def execNot (f : Form) (s : State) : Host.Outcome State Fault Refusal := .next (execAlu .not 0x09 f s)
/-- SHL (R411). -/
def execShl (f : Form) (s : State) : Host.Outcome State Fault Refusal := .next (execAlu .shl 0x0A f s)
/-- SHR (R411). -/
def execShr (f : Form) (s : State) : Host.Outcome State Fault Refusal := .next (execAlu .shr 0x0B f s)
/-- SHRL (R411). -/
def execShrl (f : Form) (s : State) : Host.Outcome State Fault Refusal := .next (execAlu .shrl 0x0C f s)
/-- CMP (R411). -/
def execCmp (f : Form) (s : State) : Host.Outcome State Fault Refusal := .next (execAlu .cmp 0x0D f s)
/-- TST (R411). -/
def execTst (f : Form) (s : State) : Host.Outcome State Fault Refusal := .next (execAlu .tst 0x0E f s)
/-- MIN (R411). -/
def execMin (f : Form) (s : State) : Host.Outcome State Fault Refusal := .next (execAlu .min 0x0F f s)
/-- MAX (R411). -/
def execMax (f : Form) (s : State) : Host.Outcome State Fault Refusal := .next (execAlu .max 0x10 f s)

/-! ### Accumulator loads and stores -/

/-- Destination accumulator and source of LDA (Table 8.10). -/
def ldaRoles (f : Form) : Opnd × Opnd :=
  match f with
  | .short aux _ y => (.acc aux.toNat, compact y)
  | .long _ _ _ _ _ _ _ _ _ _ | .reserved _ => ((longRoles f).1, (longRoles f).2.1)

def accNo : Opnd → Nat
  | .acc n => n
  | _ => 0

/-- LDA (R419): a whole accumulator source copies all 56 bits. -/
def ldaPlan (f : Form) (lay : Bool) (c : Ctx) : Run Effect := do
  let m := modsOf c f
  let (d, o) := ldaRoles f
  require 0x14 f (formOk f && isAcc d && opndOk o && decide (fidMults [o] ≤ 4))
  let l ← locOf lay c .read o 0
  return fun s =>
    let whole := vget (ctxOf s lay).a (accNo o) 0
    let (x, s) := readLoc s lay m l
    let v := if isAcc o then whole else ldaConv m.int x
    let s := passSlots s 1
    let c := applyPosts (ctxOf s lay) (postsOf c o)
    (setCtx s lay { c with a := vset c.a (accNo d) v }, {})

/-- LDA (R419). -/
def execLda (f : Form) (s : State) : Host.Outcome State Fault Refusal :=
  .next (issue s (fun lay c => ⟨firstWord 0x14 f, formLen f, ldaPlan f lay c⟩))

/-- Destination and source accumulator of STA (Table 8.10). -/
def staRoles (f : Form) : Opnd × Opnd :=
  match f with
  | .short aux x _ => (compact x, .acc aux.toNat)
  | .long _ _ _ _ _ _ _ _ _ _ | .reserved _ => ((longRoles f).1, (longRoles f).2.1)

/-- STA (R420, R348, R349, R355). -/
def staPlan (f : Form) (lay : Bool) (c : Ctx) : Run Effect := do
  let m := modsOf c f
  let (d, o) := staRoles f
  require 0x15 f (formOk f && isAcc o && dstOk d && !isAcc d)
  let ld ← locOf lay c .write d 0
  return fun s =>
    let (r, v, sa) := staConv (vget (ctxOf s lay).a (accNo o) 0) m
    (writeResult s lay m (postsOf c d) (some ld) ⟨r, znOf r { v := some v, s := sa }⟩, {})

/-- STA (R420). -/
def execSta (f : Form) (s : State) : Host.Outcome State Fault Refusal :=
  .next (issue s (fun lay c => ⟨firstWord 0x15 f, formLen f, staPlan f lay c⟩))

/-- The operand fields of a short form. -/
def shortY : Form → Nat
  | .short _ _ y => y.toNat
  | .long _ _ _ _ _ _ _ _ _ _ | .reserved _ => 0

def shortX : Form → Nat
  | .short _ x _ => x.toNat
  | .long _ _ _ _ _ _ _ _ _ _ | .reserved _ => 0

def shortAux : Form → Nat
  | .short aux _ _ => aux.toNat
  | .long _ _ _ _ _ _ _ _ _ _ | .reserved _ => 0

/-- The accumulators whose mask bit is 1 become 0 (R421). -/
def clearAccs (a : Vector Acc 4) (mask : Nat) : Vector Acc 4 :=
  (List.range 4).foldl (fun a i => if nbit mask i then vset a i 0 else a) a

/-- CLRA (R421). -/
def execClra (f : Form) (s : State) : Host.Outcome State Fault Refusal :=
  .next (execPlain 0x16 f (fun _ _ => true) (fun lay s =>
    let s := passSlots s 1
    let c := ctxOf s lay
    (setCtx s lay { c with a := clearAccs c.a (shortY f % 16) }, {})) s)

/-- BXCLR (R356). -/
def execBxclr (f : Form) (s : State) : Host.Outcome State Fault Refusal :=
  .next (execPlain 0x18 f (fun _ _ => true) (fun lay s =>
    let s := passSlots s 1
    let c := ctxOf s lay
    (setCtx s lay { c with bx := 23, f := putFlag c.f fBV false }, {})) s)

/-! ### SCALE -/

/-- Destination, source and target headroom of SCALE (Table 8.10). -/
def scaleRoles (f : Form) : Opnd × Opnd × Opnd :=
  match f with
  | .short _ x y => (compact x, compact x, compact y)
  | .long _ _ _ _ _ _ _ _ _ _ | .reserved _ => longRoles f

/-- An integer shifted by sh bits, left when positive (R357). -/
def shiftBy (v : Int) (sh : Int) : Int := if sh ≥ 0 then v * 2 ^ sh.toNat else v / 2 ^ (-sh).toNat

def isImm : Opnd → Bool
  | .imm _ _ => true
  | _ => false

def immOf : Opnd → Int
  | .imm i _ => i
  | _ => 0

/-- The cell result of SCALE from a cell source (R415): V changes only when the shift ran. -/
def scaleCell (x : Cell) (sh : Int) (on : Bool) (m : Mods) : Res24 :=
  if on then satRes (shiftBy x.toInt sh) m.sat none else ⟨x, znOf x {}⟩

/-- The 56-bit result of SCALE from an accumulator source (R335, R415), and whether it reached the limit. -/
def scaleAcc (a : Acc) (sh : Int) (on : Bool) : Acc × Bool :=
  if on then
    let v := shiftBy a.toInt sh
    (toBits 56 (accLimit v), accLimit v != v)
  else (a, false)

/-- The destination is resolved, and a fault of it waits, since a source is still to be judged as it stands in the issue
slot (R429, R437). A walk that runs out of slots ends the instruction. -/
def destOf (lay : Bool) (c : Ctx) (d : Opnd) : Run (Except Stop Loc) := fun w =>
  match (locOf lay c .write d 0).run w with
  | (.ok l, w) => (.ok (.ok l), w)
  | (.error .abandon, w) => (.error .abandon, w)
  | (.error e, w) => (.ok (.error e), w)

/-- The destination that destOf gave, or its fault. -/
def destLoc : Except Stop Loc → Run Loc
  | .ok l => pure l
  | .error e => throw e

/-- SCALE (R415): its target is judged in its own place, as it is read in the issue slot (R429, R437). -/
def scalePlan (f : Form) (lay : Bool) (c : Ctx) : Run Effect := do
  let m := modsOf c f
  let (d, o, ot) := scaleRoles f
  require 0x17 f (formOk f && (isCellOpnd o || isAcc o) && opndOk o && opndOk ot && dstOk d && (isCellOpnd d || isAcc d)
    && decide (fidMults [o, ot] ≤ 4) && (!isImm ot || (decide (0 ≤ immOf ot) && decide (immOf ot ≤ 7))))
  let l ← locOf lay c .read o 0
  let lt ← locOf lay c .read ot 0
  let ld ← destOf lay c d
  let w ← get
  let t := intValue lt (peekLoc (passSlots w.st w.stall) lay m lt)
  require 0x17 f (decide (0 ≤ t) && decide (t ≤ 7))
  let ld ← destLoc ld
  let posts := postsOf c o ++ postsOf c ot ++ postsOf c d
  return fun s =>
    let cx := ctxOf s lay
    let on := getFlag cx fBV
    let whole := vget cx.a (accNo o) 0
    let tSat := locSats s lay m lt
    let (x, s) := readLoc s lay m l
    let (tc, s) := readLoc s lay m lt
    let sh := Int.ofNat cx.bx - intValue lt tc
    let toAcc := fun (a : Acc) (fx : FlagFx) =>
      let s := passSlots s 1
      let c := applyPosts (ctxOf s lay) posts
      let fx := { fx with z := some (a == 0), n := some a.msb, s := fx.s || tSat }
      setCtx s lay { c with a := vset c.a (accNo d) a, f := applyFlags c.f fx }
    if isAcc o then
      let (a, lim) := scaleAcc whole sh on
      if isAcc d then (toAcc a (if on then { v := some lim, s := lim } else {}), {})
      else
        let (r, v, sa) := staConv a m
        (writeResult s lay m posts (some ld) ⟨r, znOf r { v := some v, s := sa || lim || tSat }⟩, {})
    else
      let res := scaleCell x sh on m
      if isAcc d then (toAcc (ldaConv m.int res.r) res.fx, {})
      else (writeResult s lay m posts (some ld) (withS res tSat), {})

/-- SCALE (R415). -/
def execScale (f : Form) (s : State) : Host.Outcome State Fault Refusal :=
  .next (issue s (fun lay c => ⟨firstWord 0x17 f, formLen f, scalePlan f lay c⟩))

/-! ### Long-form data instructions -/

/-- MOVI (R411, Table 8.10): C1 and C2 hold the value, and every modifier field is 0. -/
def moviPlan (f : Form) (lay : Bool) (c : Ctx) : Run Effect := do
  match f with
  | .short _ _ _ => illegal 0x20 f
  | .reserved _ => illegal 0x20 f
  | .long fp lane xs rnd sat trk c1 fm fpl c2 =>
    let d := fullOpnd fm fpl
    require 0x20 f (fp == 0 && lane == 0 && !xs && rnd == 0 && sat == 0 && !trk && dstOk d)
    let m := modsOf c f
    let ld ← locOf lay c .write d 0
    let r : Cell := BitVec.ofNat 24 (c1.toNat * 4096 + c2.toNat)
    return fun s => (writeResult s lay m (postsOf c d) (some ld) ⟨r, znOf r {}⟩, {})

/-- MOVI (R411). -/
def execMovi (f : Form) (s : State) : Host.Outcome State Fault Refusal :=
  .next (issue s (fun lay c => ⟨firstWord 0x20 f, formLen f, moviPlan f lay c⟩))

/-- CLAMP and LERP read their destination too (Table 8.10); mults counts the multipliers beside fid taps (R402). -/
def readModifyPlan (opc mults : Nat) (res : Cell → Cell → Cell → Mods → Res24) (f : Form) (lay : Bool) (c : Ctx) :
    Run Effect := do
  let m := modsOf c f
  let (d, o1, o2) := longRoles f
  require opc f (isLong f && formOk f && opndOk o1 && opndOk o2 && dstOk d && decide (mults + fidMults [o1, o2] ≤ 4))
  let l1 ← locOf lay c .read o1 0
  let l2 ← locOf lay c .read o2 0
  let ld ← locOf lay c .both d 0
  let posts := postsOf c o1 ++ postsOf c o2 ++ postsOf c d
  return fun s =>
    let sat := locSats s lay m l1 || locSats s lay m l2 || locSats s lay m ld
    let (a, s) := readLoc s lay m l1
    let (b, s) := readLoc s lay m l2
    let (x, s) := readLoc s lay m ld
    (writeResult s lay m posts (some ld) (withS (res x a b m) sat), {})

/-- CLAMP (R411, R412). -/
def execClamp (f : Form) (s : State) : Host.Outcome State Fault Refusal :=
  .next (issue s (fun lay c => ⟨firstWord 0x21 f, formLen f,
    readModifyPlan 0x21 0 (fun d lo hi _ => clampRes d lo hi) f lay c⟩))

/-- LERP (R413). -/
def execLerp (f : Form) (s : State) : Host.Outcome State Fault Refusal :=
  .next (issue s (fun lay c => ⟨firstWord 0x22 f, formLen f,
    readModifyPlan 0x22 1 (fun d x t m => lerpRes d x t m) f lay c⟩))

/-- The base of a TLU table (R414, Table 8.10): in Table RAM, and its first cell. -/
def tluBase (c : Ctx) : Opnd → Option (Bool × Nat)
  | .deck n => some (false, n)
  | .table n => some (true, n)
  | .ptr space n _ _ =>
    if space = 0 then some (false, ctxP c n % 4096)
    else if space = 1 then some (true, ctxP c n % 8192)
    else none
  | _ => none

/-- TLU (R414): the table's cells that its index gives in the issue slot (R429) are checked after the second source and
before the destination (R437). -/
def tluPlan (f : Form) (lay : Bool) (c : Ctx) : Run Effect := do
  let m := modsOf c f
  let (d, o1, o2) := longRoles f
  require 0x23 f (isLong f && formOk f && (tluBase c o1).isSome && opndOk o2 && dstOk d
    && decide (1 + fidMults [o2] ≤ 4))
  let (inTable, b) := (tluBase c o1).getD (false, 0)
  require 0x23 f (decide (b + 256 < (if inTable then 8192 else 4096)))
  let l2 ← locOf lay c .read o2 0
  let ld ← destOf lay c d
  let w ← get
  let (i, _) := tluIndex (peekLoc (passSlots w.st w.stall) lay m l2) m.int
  let s ← readSt
  let ram := if inTable then tableRam s else RamId.deck
  checkEcc ram (b + i)
  checkEcc ram (b + i + 1)
  let ld ← destLoc ld
  let posts := postsOf c o1 ++ postsOf c o2 ++ postsOf c d
  return fun s =>
    let sat := locSats s lay m l2
    let (x, s) := readLoc s lay m l2
    let (i, fr) := tluIndex x m.int
    let at' := fun k => if inTable then tableCell s k else sget zero s.mem.deck k
    (writeResult s lay m posts (some ld) (withS (tluRes (at' (b + i)) (at' (b + i + 1)) fr m) sat), {})

/-- TLU (R414). -/
def execTlu (f : Form) (s : State) : Host.Outcome State Fault Refusal :=
  .next (issue s (fun lay c => ⟨firstWord 0x23 f, formLen f, tluPlan f lay c⟩))

end Sys2Proof.Machine
end

