-- ==== Sys2Proof/Machine/LayMul.lean ====
section
/-! DEFINITION. Meanings of the multiplies and of what completes beside the instruction stream: multiply completion,
Strand RAM write-back, map walks, external page reads, error write-back (R337 to R347, R269, R299, R305, R271). -/

namespace Sys2Proof.Machine

/-- Destination accumulator and the two sources of a multiply (Table 8.10). -/
def mulRoles (f : Form) : Opnd × Opnd × Opnd :=
  match f with
  | .short aux x y => (.acc aux.toNat, compact x, compact y)
  | .long _ _ _ _ _ _ _ _ _ _ | .reserved _ => longRoles f

/-- Legal destinations by lane form (Table 7.5). -/
def lanesDst (lanes n : Nat) : Bool := lanes == 1 || (lanes == 2 && n % 2 == 0) || (lanes == 4 && n == 0)

/-- What may supply one cell per lane (R340). -/
def runOk (c : Ctx) (lanes : Nat) : Opnd → Bool
  | .deck n => decide (n + lanes - 1 ≤ 4095)
  | .table n => decide (n + lanes - 1 ≤ 8191)
  | .ptr space n pm _ =>
    if pm = 6 then false
    else if pm = 4 ∨ pm = 5 then true
    else if space = 0 then decide (ctxP c n % 4096 + lanes - 1 ≤ 4095)
    else if space = 1 then decide (ctxP c n % 8192 + lanes - 1 ≤ 8191)
    else true
  | .tap _ _ | .tapK _ _ | .win _ _ | .port _ => true
  | .acc _ | .part _ _ | .reg _ | .imm _ _ | .fid _ _ | .bad => false

/-- Lanes k onward of a run, translated lane by lane (R437). -/
def runLocs (lay : Bool) (c : Ctx) (o : Opnd) : Nat → Nat → Run (List Loc)
  | 0, _ => pure []
  | n + 1, k => do
    let l ← locOf lay c .read o k
    let ls ← runLocs lay c o n (k + 1)
    pure (l :: ls)

/-- The locations read in order. -/
def readLocs (s : State) (lay : Bool) (m : Mods) : List Loc → List Cell × State
  | [] => ([], s)
  | l :: ls =>
    let (x, s) := readLoc s lay m l
    let (xs, s) := readLocs s lay m ls
    (x :: xs, s)

/-- The lane products (R416): doubled in fraction interpretation. -/
def products (int : Bool) (shared : Cell) (run : List Cell) : List Int :=
  run.map (fun x => shared.toInt * x.toInt * (if int then 1 else 2))

/-- A multiply (R337 to R342): its products are formed in its slot and applied two slots later (R343). -/
def mulPlan (op : MulOp) (opc : Nat) (f : Form) (lay : Bool) (c : Ctx) : Run Effect := do
  let m := modsOf c f
  let (d, o1, o2) := mulRoles f
  let wide := decide (m.lanes > 1)
  let run := if m.xs then o1 else o2
  require opc f (formOk f && isAcc d && opndOk o1 && opndOk o2 && lanesDst m.lanes (accNo d)
    && (!wide || (runOk c m.lanes run && !isFid o1 && !isFid o2))
    && decide (m.lanes + fidMults [o1, o2] ≤ 4))
  let n1 := if wide && m.xs then m.lanes else 1
  let n2 := if wide && !m.xs then m.lanes else 1
  let ls1 ← runLocs lay c o1 n1 0
  let ls2 ← runLocs lay c o2 n2 0
  let posts := postsOf c o1 ++ postsOf c o2
  return fun s =>
    let sat := (ls1 ++ ls2).any (locSats s lay m)
    let (xs1, s) := readLocs s lay m ls1
    let (xs2, s) := readLocs s lay m ls2
    let prods := if wide && m.xs then products m.int (xs2.headD 0) xs1 else products m.int (xs1.headD 0) xs2
    let s := passSlots s 1
    let s := setCtx s lay (applyPosts (ctxOf s lay) posts)
    ({ s with lay := { s.lay with flight := s.lay.flight ++ [⟨lay, 2, op, accNo d, prods, sat⟩] } }, {})

def execMul (op : MulOp) (opc : Nat) (f : Form) (s : State) : State :=
  issue s (fun lay c => ⟨firstWord opc f, formLen f, mulPlan op opc f lay c⟩)

/-- MPY (R416). -/
def execMpy (f : Form) (s : State) : Host.Outcome State Fault Refusal := .next (execMul .set 0x11 f s)
/-- MAC (R416). -/
def execMac (f : Form) (s : State) : Host.Outcome State Fault Refusal := .next (execMul .add 0x12 f s)
/-- MSU (R416). -/
def execMsu (f : Form) (s : State) : Host.Outcome State Fault Refusal := .next (execMul .sub 0x13 f s)

/-- MULTIPLY_COMPLETE (R343): slots pass up to the end of the slot in which the oldest multiply in flight completes. -/
def execMultiplyComplete (s : State) : Host.Outcome State Fault Refusal :=
  match s.lay.flight with
  | [] => .next s
  | m :: _ => .next (passSlots s (min m.left (frameLeft s)))

/-- STRAND_WRITE_BACK (R269): the waiting store is written. -/
def execStrandWriteBack (s : State) : Host.Outcome State Fault Refusal := .next (storeCommit s)

/-- A standalone access of the current context: its stalls pass, and a fault is logged at the pc (R301, R432). -/
def runAccess (s : State) (lay silent : Bool) (acc : Run Unit) : State :=
  let ends := fun (t : State) => if lay then t else slackReadsEnd t
  match acc.run.run { st := s, stall := 0, silent := silent } with
  | (.ok _, w) => ends (passSlots w.st w.stall)
  | (.error (.fault code detail va), w) =>
    let s := ends (passSlots w.st w.stall)
    let s := match va with
      | some a => noteMapFault s lay code a
      | none => s
    let s := logPush s (annulItem s lay 1 code detail)
    if lay then { s with lay := { s.lay with tainted := true } } else s
  | (.error .abandon, w) => outOfSlots (passSlots w.st w.stall) lay true

/-- MAP_WALK (R299): a pin operation that waits for a Slack slot walks (R315); else the context that issues walks for an
address. Late says that the memory of an external table does not answer in time (R303, R594). -/
def execMapWalk (va : BitVec 24) (s0 : State) (late : Bool := false) : Host.Outcome State Fault Refusal :=
  let s := tickEdge s0
  let walk := fun (lay : Bool) =>
    if va.toNat ≥ 0xFE0000 then s else runAccess s lay late (do let _ ← translate lay va.toNat)
  match issuer s, s.map.pin with
  | some true, _ => .next (walk true)
  | _, some _ => .next (pinTry s)
  | some false, none => .next (walk false)
  | none, none => .next s

/-- EXTERNAL_PAGE_READ (R305): a read of an external page by the context that issues; late says that the memory does not
answer in time (R303, R594). -/
def execExternalPageRead (va : BitVec 24) (late : Bool) (s0 : State) : Host.Outcome State Fault Refusal :=
  let s := tickEdge s0
  match issuer s with
  | none => .next s
  | some lay =>
    if va.toNat ≥ 0xFE0000 then .next s
    else .next (runAccess s lay late (do
      let p ← translate lay va.toNat
      match p with
      | .ext _ _ _ _ =>
        let _ ← pageLoc lay .read p va.toNat
      | _ => pure ()))

/-- ECC_WRITE_BACK (R271): the first corrected word that waits is written back, and its error is gone. -/
def execEccWriteBack (s : State) : Host.Outcome State Fault Refusal :=
  match s.mem.ecc.find? (fun e => e.found && !e.double) with
  | some e => .next { s with mem := eccClear s.mem e.ram e.addr }
  | none => .next s

end Sys2Proof.Machine
end

