-- ==== Sys2Proof/Machine/LayControl.lean ====
section
/-! DEFINITION. Meanings of branches, loops, END, MODE, YIELD, SPLC and EVT (R363 to R377, R408, R422 to R427). -/

namespace Sys2Proof.Machine

/-- The branch target in bits [12:0] of a short form. -/
def targetOf (f : Form) : PAddr := BitVec.ofNat 13 (shortX f % 2 * 4096 + shortY f)

/-- B<cc> (R354, R363, R422): the condition is bits [23:20]. -/
def execBcc (f : Form) (s : State) : Host.Outcome State Fault Refusal :=
  .next (execPlain 0x19 f (fun _ c => c.branch.isNone) (fun lay s =>
    let c := ctxOf s lay
    let taken := condHolds (shortX f / 256) c
    (passSlots s 1, { branch := some ⟨c.pc, targetOf f, true, false, taken⟩ })) s)

/-- Whether a ninth CALL traps in this context (Table 7.9). -/
def coilTraps (s : State) (lay : Bool) : Bool := getB s Reg.layCoilCfg (if lay then 0 else 8)

/-- CALL (R366, R368): the Coil takes the address after the delay slot, known when the delay slot issues. -/
def callPlan (f : Form) (lay : Bool) (c : Ctx) : Run Effect := do
  require 0x1A f (!isLong f && c.branch.isNone)
  let s ← readSt
  if decide (c.coil.length ≥ 8) && coilTraps s lay then stopWith .coilOverflow 8
  return fun s =>
    let s := passSlots s 1
    let c := ctxOf s lay
    (setCtx s lay { c with coil := ((c.pc + 2) :: c.coil).take 8 },
     { branch := some ⟨c.pc, targetOf f, false, true, true⟩ })

/-- CALL (R366). -/
def execCall (f : Form) (s : State) : Host.Outcome State Fault Refusal :=
  .next (issue s (fun lay c => ⟨firstWord 0x1A f, formLen f, callPlan f lay c⟩))

/-- RET (R366, R369). -/
def retPlan (f : Form) (lay : Bool) (c : Ctx) : Run Effect := do
  require 0x1B f (!isLong f && c.branch.isNone)
  match c.coil with
  | [] => stopWith .coilUnderflow 0
  | t :: _ =>
    return fun s =>
      let s := passSlots s 1
      let c := ctxOf s lay
      (setCtx s lay { c with coil := c.coil.drop 1 }, { branch := some ⟨c.pc, t, false, false, true⟩ })

/-- RET (R366). -/
def execRet (f : Form) (s : State) : Host.Outcome State Fault Refusal :=
  .next (issue s (fun lay c => ⟨firstWord 0x1B f, formLen f, retPlan f lay c⟩))

/-- The end address in bits [24:12] of LOOP. -/
def loopEnd (f : Form) : PAddr := BitVec.ofNat 13 (shortAux f % 2 * 4096 + shortX f)

/-- The count an operand gives LOOP (R370): an immediate its signed value, anything else bits [12:0]. -/
def loopCount (l : Loc) (x : Cell) : Int :=
  match l with
  | .imm i _ => i
  | _ => Int.ofNat (x.toNat % 8192)

/-- LOOP (R370, R373, R423). -/
def loopPlan (f : Form) (lay : Bool) (c : Ctx) : Run Effect := do
  let m := modsOf c f
  let fromOp := decide (shortAux f ≥ 2)
  let o := compact (BitVec.ofNat 12 (shortY f))
  let last := loopEnd f
  require 0x1C f (!isLong f && c.branch.isNone && (!fromOp || opndOk o))
  if decide (c.hitch.length ≥ 3) then stopWith .loopMisuse 0
  if decide (last.toNat < (c.pc + 1).toNat) then stopWith .loopMisuse 2
  match c.hitch with
  | h :: _ => if decide (last.toNat > h.last.toNat) then stopWith .loopMisuse 3
  | [] => pure ()
  if fromOp then
    let l ← locOf lay c .read o 0
    let w ← get
    let n := loopCount l (peekLoc (passSlots w.st w.stall) lay m l)
    if decide (n < 1) || decide (n > 4096) then stopWith .loopMisuse 1
    return fun s =>
      let sat := locSats s lay m l
      let (x, s) := readLoc s lay m l
      let s := passSlots s 1
      let c1 := applyPosts (ctxOf s lay) (postsOf c o)
      let s := setCtx s lay { c1 with f := applyFlags c1.f { s := sat } }
      (s, { hitch := some ⟨c.pc + 1, last, (loopCount l x).toNat⟩ })
  else
    return fun s => (passSlots s 1, { hitch := some ⟨c.pc + 1, last, shortY f + 1⟩ })

/-- LOOP (R423). -/
def execLoop (f : Form) (s : State) : Host.Outcome State Fault Refusal :=
  .next (issue s (fun lay c => ⟨firstWord 0x1C f, formLen f, loopPlan f lay c⟩))

/-- END ends the Lay for the frame (R26); in a step run the pc goes to LAY_ENTRY, and UNTIL_END ends the run (R209). -/
def layEnd (s : State) : State × Ctl :=
  let stepping := s.lay.stepping
  let left := getF s Reg.layCtrl 11 0 - 1
  let s1 := passSlots { s with lay := { s.lay with endedAt := some s.clock.slot, headsDue := true } } 1
  let s2 := { s1 with lay := { s1.lay with inLay := false, stepping := false } }
  if stepping then
    let stop := getB s Reg.layCtrl 13 || left == 0
    let s3 := setF s2 Reg.layCtrl 11 0 (if stop then 0 else left)
    (if stop then setB s3 Reg.layCtrl 12 true else s3,
     { pcTo := some (BitVec.ofNat 13 (getF s Reg.layEntry 12 0)) })
  else (s2, {})

/-- END (R26, R209, R424). -/
def execEnd (f : Form) (s : State) : Host.Outcome State Fault Refusal :=
  .next (execPlain 0x1D f (fun lay c => lay && c.branch.isNone) (fun _ s => layEnd s) s)

/-- MODE (R359, R408): bits [8:5] are the mask, bits [4:0] the values. -/
def execMode (f : Form) (s : State) : Host.Outcome State Fault Refusal :=
  .next (execPlain 0x1E f (fun _ _ => !(nbit (shortY f) 8 && shortY f / 8 % 4 == 3)) (fun _ s =>
    (passSlots s 1, { mode := some ⟨BitVec.ofNat 4 (shortY f / 32), BitVec.ofNat 5 (shortY f)⟩ })) s)

/-- YIELD (R425, R463): your Slack program stops for the frame and the watchdog restarts. -/
def execYield (f : Form) (s : State) : Host.Outcome State Fault Refusal :=
  .next (execPlain 0x1F f (fun lay _ => !lay) (fun _ s =>
    let s := passSlots s 1
    (wdogRestart { s with lay := { s.lay with yielded := true } }, {})) s)

/-- The number that C1 of a long form carries for SPLC and EVT (Table 8.10). -/
def fnNumber : Form → Nat
  | .short _ _ _ | .reserved _ => 0
  | .long _ _ _ _ _ _ c1 _ _ _ => c1.toNat % 16

def longFp : Form → BitVec 2
  | .short _ _ _ | .reserved _ => 3
  | .long fp _ _ _ _ _ _ _ _ _ => fp

def fullOf : Form → Opnd
  | .short _ _ _ | .reserved _ => .bad
  | .long _ _ _ _ _ _ _ fm fpl _ => fullOpnd fm fpl

/-- SPLC and EVT (R426, R427): one source, one act at the end of the slot. -/
def actPlan (opc top : Nat) (act : State → Bool → Nat → Cell → State) (f : Form) (lay : Bool) (c : Ctx) :
    Run Effect := do
  let m := modsOf c f
  let n := fnNumber f
  let o := fullOf f
  require opc f (isLong f && formOk f && longFp f == 1 && decide (n ≤ top) && opndOk o && decide (fidMults [o] ≤ 4))
  let l ← locOf lay c .read o 0
  return fun s =>
    let sat := locSats s lay m l
    let (x, s) := readLoc s lay m l
    let s := passSlots s 1
    let c1 := applyPosts (ctxOf s lay) (postsOf c o)
    let s := setCtx s lay { c1 with f := applyFlags c1.f { s := sat } }
    (act s lay n x, {})

/-- SPLC's write (R426). -/
def splcWrite (s : State) (lay : Bool) (n : Nat) (x : Cell) : State :=
  let r := if n = 0 then Reg.splStagePtr else if n = 1 then Reg.splStageData else Reg.splCommitFrame
  let v : Word := if n = 2 then frameNo s + BitVec.ofNat 32 x.toNat else BitVec.ofNat 32 x.toNat
  (writeReg (srcOf lay) r v 0xF s).1

/-- SPLC (R426). -/
def execSplc (f : Form) (s : State) : Host.Outcome State Fault Refusal :=
  .next (issue s (fun lay c => ⟨firstWord 0x24 f, formLen f, actPlan 0x24 2 splcWrite f lay c⟩))

/-- EVT (R427). -/
def execEvt (f : Form) (s : State) : Host.Outcome State Fault Refusal :=
  .next (issue s (fun lay c => ⟨firstWord 0x25 f, formLen f,
    actPlan 0x25 15 (fun s _ n x => postEvent s n (fun _ => x)) f lay c⟩))

end Sys2Proof.Machine
end

