-- ==== Sys2Proof/Machine/Frame.lean ====
section
/-! DEFINITION. The frame tick (01_one_frame.md, Table 1.3), the transitions that a frame tick brings
(04_modes_and_bringup.md, R162, R205, R446), head advance (R275, R276) and starved events (R334). -/

namespace Sys2Proof.Machine

/-- Frame ticks happen: the PLL runs, outside OFF, DORMANT, STANDBY and factory test. -/
def frameTicks (s : State) : Bool :=
  pllRuns s && !s.power.factory && s.power.mode != .off && s.power.mode != .dormant && s.power.mode != .standby

/-! ### The end of a frame -/

/-- A ROM micro-routine is pending (R463): a Slack-served command, a rope request in execution, a LIN value kept for a
retry. -/
def romPending (s : State) : Bool := s.twb.slack.isSome || s.rope.next.isSome || !s.hal.keep.isEmpty

/-- The rest of the frame's slots pass (R21, R27, R43); a pin operation that waits walks in Slack's slots (R315). A START
pulse has ended the frame already (R659). -/
def endFrame (s : State) : State :=
  if s.clock.startDue then s
  else
    let s := pinTry (runToFence s)
    let s := romEnded (passSlots s (frameLeft s))
    if getB s Reg.laySlackEntry 31 || romPending s then s else wdogRestart s

/-- The taint ladder at a frame tick (R445, R453). -/
def taintTick (s : State) : State :=
  let t := s.lay.tainted
  let s := setF s Reg.cltTaint 15 8 (if t then satInc (getF s Reg.cltTaint 15 8) 255 else 0)
  if t then setB (countUp s Reg.cltTaint 31 16) Reg.cltTaint 0 true else s

/-- The Lay ran in the ending frame, to END or to the fence (R70). -/
def layRan (s : State) : Bool := s.lay.endedAt.isSome || s.lay.overran

/-- LAY_END_SLOT and MAP_WALK_STATS describe the ending frame (R70, R320), and give QTY 0x1 and 0x3 (Table 18.6). -/
def endReport (s : State) : State :=
  let slot := if s.lay.overran then fence s else s.lay.endedAt.getD 0
  let charged := min s.map.charged 2047
  let t := setReg s Reg.mapWalkStats (BitVec.ofNat 32 (s.map.walks * 2 ^ 24 + s.map.faults * 2 ^ 16 + charged))
  if layRan s then
    let t := setReg t Reg.layEndSlot (BitVec.ofNat 32 (b2n s.lay.overran * 2 ^ 31 + slot % 65536))
    if s.power.mode == .run || s.power.mode == .quiesce then
      tallySample (tallySample t 0x1 0 false slot) 0x3 0 false charged
    else t
  else t

/-! ### Order 1: the new frame's number, and writes that waited for the tick -/

/-- Register writes that waited take effect (R40, R285, R297, R367, R804). -/
def takeWrites (s : State) : State :=
  let map := if s.tickPend.any (fun e => e.1 == Reg.mapL1Base) then cacheEmpty s.map else s.map
  let depth := s.lay.coilMax
  let t := s.tickPend.foldl (fun s e => setReg s e.1 e.2) { s with tickPend := [], map := map }
  setF t Reg.layCoilCfg 15 12 depth

/-- SYS_FRAME takes its new value (R55, R58, R659). -/
def nextFrame (s : State) : State :=
  if s.clock.startDue then setReg (takeWrites s) Reg.sysFrame 0
  else takeWrites (setReg s Reg.sysFrame (frameNo s + 1))

/-- The frame rate of an accepted image or ROM Lay takes effect (R167). -/
def rateTake (s : State) : State :=
  { s with clock := { s.clock with rate := s.clock.rateDue.getD s.clock.rate, rateDue := none } }

/-! ### Heads (R275, R276, Table 6.5) -/

/-- An uncorrectable error in a descriptor cell: logged once until the descriptor is rewritten (Table 6.2). -/
def headFault (s : State) (n a : Nat) : State :=
  if s.mem.eccLogged.contains n then s
  else
    let t := logHw s .ramEcc (BitVec.ofNat 32 (ramNo .line * 2 ^ 28 + a))
    { t with mem := { t.mem with eccLogged := n :: t.mem.eccLogged } }

/-- The head of line n after an advance (R275). -/
def headNext (s : State) (n : Nat) (up : Bool) : Nat :=
  let h : Int := Int.ofNat (cfld (lineCell s n 2) 19 0)
  ((h + (if up then 1 else -1)) % Int.ofNat (lineLen s n)).toNat

/-- One line at a tick at which heads advance. -/
def headStep (s : State) (n : Nat) : State :=
  let (bad, s) := eccRead s .line (4 * n + 1)
  if bad then headFault s n (4 * n + 1)
  else
    let w := lineCell s n 1
    let step := cfld w 21 20
    if !w.msb || (step != 1 && step != 2) then s
    else
      let (bad, s) := eccRead s .line (4 * n + 2)
      if bad then headFault s n (4 * n + 2)
      else { s with mem := eccClear { s.mem with
        line := sput zero s.mem.line (4 * n + 2) (BitVec.ofNat 24 (headNext s n (step == 1))) } .line (4 * n + 2) }

/-- Heads advance at this tick, which ends a frame of the mode. -/
def headsMove (s : State) : Bool :=
  !getB s Reg.mapLineCtrl 0 &&
    match s.power.mode with
    | .run | .quiesce => true
    | .workshop => !getB s Reg.mapLineCtrl 8 || s.lay.headsDue
    | _ => false

/-- The head advance of a frame tick, then the reel streams that follow heads (R609). -/
def headsTick (s : State) : State :=
  let s := if headsMove s then (List.range 256).foldl headStep s else s
  reelTick { s with lay := { s.lay with headsDue := false } }

/-! ### Transitions at the tick -/

/-- Your Slack program starts once, when RUN is first entered after RAISE (R327). -/
def slackBegin (s : State) : State :=
  if s.lay.firstRun then
    { s with lay := { s.lay with
        firstRun := false, slackOn := getB s Reg.laySlackEntry 31,
        slack := { s.lay.slack with pc := BitVec.ofNat 13 (getF s Reg.laySlackEntry 12 0) } } }
  else s

/-- After a wake: its latency is a sample of QTY 0x9, and a LIN wake-up signal may be due (R756). -/
def wakeReport (s : State) : State :=
  match s.power.wakeAt with
  | none => s
  | some t0 =>
    let t := tallySample s 0x9 0 false (min ((s.clock.time - t0) * 100 / clocksPerMs) 65535)
    let marked := Nat.land (getF s Reg.pwrWakeSrc 7 0) (Nat.land (getF s Reg.halWake 23 16) 0xFB)
    { t with
      power := { t.power with wakeAt := none },
      hal := { t.hal with wakeDue := t.hal.wakeDue || (marked != 0 && halMode s != 0) } }

/-- RUN begins (R162, R198, R327, R462, R470, R546, R801). -/
def runEnter (s : State) : State :=
  let old := s.power.mode
  let (num, den) := fadeFactor s
  let t := slackBegin (changeMode (handoverBegin s) .run)
  let t := { t with
    light := { t.light with handover := some 0 },
    loader := { t.loader with twbiOn := !t.loader.twbi.isEmpty },
    audio := { t.audio with fade := if old == .holdover && num != den then .up num den 0 else .full } }
  if old == .raise then
    let t := wakeReport (whipReset t 0)
    { t with cleat := { t.cleat with wdogOn := true, wdogStart := t.clock.time } }
  else t

/-- RUN from WORKSHOP with the loaded image (R214, R171). -/
def runLoaded (s : State) : State :=
  let t := setBoot s (if s.loader.overRope then 4 else 5) (runVariant s s.loader.bytes)
  runEnter { t with rom := RomLay.init }

/-- The Lay returns to its entry (R25, R324): a branch whose delay slot has not issued is lost (R379). -/
def layHome (s : State) : State :=
  { s with lay := { s.lay with lay := { s.lay.lay with
      pc := BitVec.ofNat 13 (getF s Reg.layEntry 12 0), coil := [], hitch := [], branch := none } } }

/-- WORKSHOP from RUN or HOLDOVER (R205, R206). -/
def workshopEnter (s : State) : State :=
  let t := layHome (changeMode s .workshop)
  setF { t with audio := { t.audio with fade := .full }, lay := { t.lay with inLay := false } } Reg.layCtrl 11 0 0

/-- A pending request, or step 10 of RAISE. -/
def modeTick (s : State) : State :=
  let t := { s with power := { s.power with pendingReq := none } }
  match s.power.pendingReq, s.power.mode with
  | some .run, .holdover => setResult (runEnter (setF t Reg.cltTaint 15 8 0)) 2
  | some .run, .workshop => if getB t Reg.sysStatus 8 then setResult (runLoaded t) 2 else setResult t 3
  | some .workshop, .run | some .workshop, .holdover => setResult (workshopEnter t) 2
  | some _, _ => t
  | none, .raise => if s.power.raise == .firstFrame then runEnter s else s
  | none, _ => s

/-- The frame tick enters HOLDOVER (R446): the frame that ends is tainted, and CONSEC has reached K. -/
def holdReached (s : State) : Bool :=
  s.power.mode == .run && s.lay.tainted && decide (getF s Reg.cltTaint 15 8 ≥ s.cleat.kInForce)

/-! ### Order 4: audio samples for the monitors (Table 18.6) -/

/-- QTY 0x5 and 0x6 at a frame tick. -/
def audioSamples (s : State) : State :=
  let dev := fun (s : State) (out : Bool) =>
    if (asrOf s out).st == .locked then
      tallySample s 0x5 (b2n out) false (sget zero s.mem.port (if out then 0x135 else 0x131)).toInt
    else s
  let level := fun (s : State) (k : Nat) => tallySample s 0x6 k false (absCell (sget zero s.mem.port (0x100 + k)))
  ((List.range 24) ++ (List.range 8).map (· + 0x20)).foldl level (dev (dev s false) true)

/-! ### Order 6: the length of the frame (R64, R67, R237) -/

/-- The length of the frame that begins: alignment moves it (R237), else a nudge (R64); a COUNT written in the tick's own
core clock stays as written (R68). -/
def frameLength (s : State) : State :=
  let b : Int := Int.ofNat (budget s)
  if s.clk.aligning then
    let (d, t) := alignStep s
    { t with clock := { t.clock with frameLen := (b + d).toNat, nudgeEdge := none } }
  else
    let c := signed 16 (s.clock.nudgeEdge.getD (getF s Reg.clkNudge 15 0))
    let d : Int := if s.clk.follow then 0 else if c > 0 then 1 else if c < 0 then -1 else 0
    let t := if s.clock.nudgeEdge.isSome then s else setF s Reg.clkNudge 15 0 (toBits 16 (c - d)).toNat
    { t with clock := { t.clock with frameLen := (b + d).toNat, nudgeEdge := none } }

/-! ### Order 7: the Lay -/

/-- A frame begins for the Lay: what describes a frame starts anew, and the walk allowance is refilled (R33). -/
def frameClear (s : State) : State :=
  { s with
    lay := { s.lay with
      endedAt := none, romEnd := none, overran := false, tainted := false, yielded := false, inLay := false,
      stepping := false },
    map := { s.map with walks := 0, faults := 0, charged := 0, allowance := getF s Reg.layWalkAllow 10 0 },
    clock := { s.clock with slot := 0, startDue := false } }

/-- The tick's act on the Lay context in every mode but WORKSHOP (R25, R207, R324); the frame's largest Coil depth begins
with the depth that is left (Table 7.9). -/
def layTick (s : State) : State :=
  let t := if s.power.mode == .workshop then s else layHome s
  { t with lay := { t.lay with coilMax := t.lay.lay.coil.length } }

/-- Every multiply in flight completes, before a step run issues (R211). -/
def flightAll (s : State) : State := { s with lay := s.lay.flight.foldl mulComplete { s.lay with flight := [] } }

/-- The Lay of the new frame starts (R25, R208); a ROM Lay does its frame's work (Table 3.4) and issues END before the
fence (R42). -/
def layStart (s : State) : State :=
  match s.power.mode with
  | .run | .quiesce =>
    match s.rom.code with
    | some c => romSound { s with lay := { s.lay with romEnd := some (min (Config.romEndSlot c) (fence s - 1)) } }
    | none => { s with lay := { s.lay with inLay := true } }
  | .workshop =>
    if getF s Reg.layCtrl 11 0 = 0 then s
    else
      let t := storeCommit (flightAll s)
      { t with lay := { t.lay with inLay := true, stepping := true } }
  | _ => s

/-! ### Starved events (R334) -/

def ageEvents (s : State) : State :=
  if s.power.mode == .limp then s else { s with events := { s.events with age := (List.range 22).foldl (fun a e =>
      if getB s Reg.layEvtPend e && getB s Reg.layEvtEn e then vset a e (satInc (vget a e 0) 64) else a) s.events.age } }

/-- One event that has been pending for 64 frame ticks. -/
def starveEvent (s : State) (e : Nat) : State :=
  if getB s Reg.layEvtPend e && getB s Reg.layEvtEn e && decide (vget s.events.age e 0 ≥ 64) && !vget s.events.logged e false then
    logHw { s with events := { s.events with logged := vset s.events.logged e true } } .slackStarved
      (BitVec.ofNat 32 (64 * 65536 + e))
  else s

def starveEvents (s : State) : State := (List.range 22).foldl starveEvent s

/-! ### The frame tick -/

/-- Everything that the last frame tick brought is carried out. -/
def duePass (s : State) : State := quiesceLeave (starveEvents (lightTick s))

/-- The actions of Table 1.3 in their order; in LIMP only the count goes on (R189). A MAP_LINE_CTRL write that takes effect at
this tick governs its head advance already: DESIGN CHOICE, log entry 89. -/
def frameTick (t : TickIn) (s : State) : State :=
  let s := rateTake (nextFrame (endReport (taintTick (endFrame s))))
  let s := { s with
    cleat := { s.cleat with kInForce := getF s Reg.cltLadderCfg 31 24, hInForce := getF s Reg.cltLadderCfg 23 16 },
    pins := { s.pins with gpio := t.gpio } }
  let hold := holdReached s
  let s := handoverTick (headsTick (frameClear (ageEvents s)))
  let s := if hold then dropRequest s else modeTick s
  let s := if s.power.mode == .limp then s else audioSamples (audioTick (spliceTick s) t)
  let s := layTick (frameLength s)
  let s := if hold then s else layStart s
  let light := (frameNo s).toNat % lightDiv s == 0
  let s := { s with
    clock := { s.clock with holdDue := hold, lightDue := light },
    light := { s.light with pwmStart := if light then s.clock.time else s.light.pwmStart } }
  svcTick (if light then s else quietCheck s)

/-- FRAME_TICK (R22). -/
def execFrameTick (t : TickIn) (s : State) : Host.Outcome State Fault Refusal :=
  let s := duePass s
  .next (if frameTicks s then frameTick t s else s)

/-- LIGHT_TICK (R49): at the clock edge of its frame tick. -/
def execLightTick (s : State) : Host.Outcome State Fault Refusal := .next (lightTick s)

/-- ENTER_HOLDOVER (R446). -/
def execEnterHoldover (s : State) : Host.Outcome State Fault Refusal := .next (holdCarry s)

/-- SLACK_STARVED (R334). -/
def execSlackStarved (s : State) : Host.Outcome State Fault Refusal := .next (starveEvents s)

/-- START_PULSE (R659): the frame in progress ends one core clock later; the next frame tick is of frame 0. -/
def execStartPulse (s : State) : Host.Outcome State Fault Refusal :=
  if getF s Reg.ropCfg 29 28 = 1 ∧ (s.power.mode = .raise ∨ s.power.mode = .workshop) ∧ frameTicks s = true
      ∧ s.clock.startDue = false then
    let t := romEnded (passSlots (duePass s) 1)
    .next { t with clock := { t.clock with startDue := true }, lay := { t.lay with inLay := false, stepping := false } }
  else .next s

end Sys2Proof.Machine
end

