-- ==== Sys2Proof/Machine/Sys.lean ====
section
/-! DEFINITION. The commands that are register accesses (04_modes_and_bringup.md; R884), the log, the monitors, the
supplies and the pins. A row that names a field writes its register with that field so set. -/

namespace Sys2Proof.Machine

/-- A command that writes register r. -/
def wr (src : Source) (r : Nat) (v : Word) (s : State) : Host.Outcome State Fault Refusal := .next (regWrite s src r v)

/-- A command that writes some bytes of register r. -/
def wrBytes (src : Source) (r : Nat) (v : Word) (be : Nat) (s : State) : Host.Outcome State Fault Refusal :=
  .next (writeReg src r v be s).1

/-! ### Mode requests (R158 to R164, R190 to R194, R202, R205, R214) -/

/-- A keyed write of SYS_MODE_REQ (Table 4.4). -/
def request (src : Source) (target : Nat) (s : State) : Host.Outcome State Fault Refusal :=
  wr src Reg.sysModeReq (BitVec.ofNat 32 (0x4D000000 + target)) s

def execModeReqQuiesce (src : Source) (standby : Bool) (s : State) : Host.Outcome State Fault Refusal :=
  request src (if standby then 2 else 1) s
def execModeReqWorkshop (src : Source) (s : State) : Host.Outcome State Fault Refusal := request src 7 s
def execModeReqResume (src : Source) (s : State) : Host.Outcome State Fault Refusal := request src 4 s
def execModeReqWorkshopRun (src : Source) (s : State) : Host.Outcome State Fault Refusal := request src 4 s
def execModeReqWorkshopRestart (src : Source) (s : State) : Host.Outcome State Fault Refusal := request src 3 s
def execModeReqStandbyDormant (src : Source) (s : State) : Host.Outcome State Fault Refusal := request src 1 s
def execModeReqStandbyRaise (src : Source) (four : Bool) (s : State) : Host.Outcome State Fault Refusal :=
  request src (if four then 4 else 3) s
def execLeaveLimpRestart (src : Source) (s : State) : Host.Outcome State Fault Refusal := request src 3 s
def execLeaveLimpWorkshop (src : Source) (s : State) : Host.Outcome State Fault Refusal := request src 7 s
def execLeaveLimpDormant (src : Source) (s : State) : Host.Outcome State Fault Refusal := request src 1 s

/-- SYS_RESET (R163). -/
def execSysReset (src : Source) (s : State) : Host.Outcome State Fault Refusal := wr src Reg.sysReset 0x5A s

/-! ### Register writes with a row of their own -/

/-- The place of a source among writes of one core clock (R270); a ROM micro-routine writes as Slack. -/
def srcRank : Source → Nat
  | .twb => 0 | .rope => 1 | .slack => 2 | .rom => 2 | .lay => 3

/-- The write that governs: the first of the earliest source. -/
def governs (w : RegWrite) (ws : List RegWrite) : RegWrite :=
  ws.foldl (fun a b => if srcRank b.src < srcRank a.src then b else a) w

/-- A write that counts among those of one core clock: one that reaches the register, with its KEY where it needs one. -/
def contends (s : State) (r : Nat) (w : RegWrite) : Bool :=
  reaches s w.src r && (r != Reg.sysModeReq || fld w.val 31 24 == 0x4D)

/-- Writes to one register in one core clock (R270): the others are lost; a mode request among them is refused with RESULT
0x5 (R161), and a claim of the idle splice unit is refused (R487). -/
def writeTogether (s : State) (r : Nat) (w : RegWrite) (rivals : List RegWrite) : State :=
  match (w :: rivals).filter (contends s r) with
  | [] => regWrite s w.src r w.val
  | x :: xs =>
    let g := governs x xs
    let others := (x :: xs).erase g
    let t := regWrite s g.src r g.val
    if r = Reg.sysModeReq then (if others.isEmpty then t else setResult t 5)
    else if (r = Reg.splStagePtr ∨ r = Reg.splStageData ∨ r = Reg.splCommitFrame) ∧ s.splice.state = .idle
        ∧ t.splice.owner = ownerOf g.src then
      others.foldl (fun t o => regWrite t o.src r o.val) t
    else t

/-- REGISTER_WRITE (R270, R884): rivals are the writes of other sources to the same register in the same core clock. -/
def execRegisterWrite (src : Source) (page : BitVec 8) (index : BitVec 6) (v : Word) (s : State)
    (rivals : List RegWrite := []) : Host.Outcome State Fault Refusal :=
  let r := 64 * page.toNat + index.toNat
  .next (if rivals.isEmpty then regWrite s src r v else writeTogether s r ⟨src, v⟩ rivals)

/-- SYS_FRAME_WRITE (R58). -/
def execSysFrameWrite (src : Source) (v : Word) (s : State) : Host.Outcome State Fault Refusal := wr src Reg.sysFrame v s
/-- CLK_NUDGE_WRITE (R66). -/
def execClkNudgeWrite (src : Source) (v : Word) (s : State) : Host.Outcome State Fault Refusal := wr src Reg.clkNudge v s
/-- BUDGET_REGISTER_WRITE (R40, R41). -/
def execBudgetRegisterWrite (src : Source) (walk : Bool) (v : Word) (s : State) : Host.Outcome State Fault Refusal :=
  wr src (if walk then Reg.layWalkAllow else Reg.laySlackMin) v s
/-- RATE_WRITE (R20). -/
def execRateWrite (src : Source) (v : Word) (s : State) : Host.Outcome State Fault Refusal := wr src Reg.layFrameCfg v s
/-- STEP_WRITE (R206, R213). -/
def execStepWrite (src : Source) (v : Word) (s : State) : Host.Outcome State Fault Refusal := wr src Reg.layCtrl v s
/-- MAP_L1_BASE_WRITE (R297). -/
def execMapL1BaseWrite (src : Source) (v : Word) (s : State) : Host.Outcome State Fault Refusal := wr src Reg.mapL1Base v s

/-- INVALIDATE_ALL (R312): OP 0b01. -/
def execInvalidateAll (src : Source) (s : State) : Host.Outcome State Fault Refusal :=
  wrBytes src Reg.mapCacheCtrl 0x40000000 0x8 s
/-- INVALIDATE_VPN (R312): OP 0b10. -/
def execInvalidateVpn (src : Source) (vpn : BitVec 12) (s : State) : Host.Outcome State Fault Refusal :=
  wr src Reg.mapCacheCtrl (BitVec.ofNat 32 (0x80000000 + vpn.toNat)) s
/-- PIN_PAGE (R315): OP 0b11. -/
def execPinPage (src : Source) (vpn : BitVec 12) (s : State) : Host.Outcome State Fault Refusal :=
  wr src Reg.mapCacheCtrl (BitVec.ofNat 32 (0xC0000000 + vpn.toNat)) s

/-- LOG_CLEAR (R458): FREEZE is written as it stands. -/
def execLogClear (src : Source) (s : State) : Host.Outcome State Fault Refusal :=
  wr src Reg.cltLogHead (BitVec.ofNat 32 (2 ^ 21 + b2n (getB s Reg.cltLogHead 22) * 2 ^ 22)) s
/-- WATCHDOG_KICK (R463): KICK alone is written. -/
def execWatchdogKick (src : Source) (s : State) : Host.Outcome State Fault Refusal :=
  wrBytes src Reg.cltWdog 0xA5000000 0x8 s

/-- STAGE_PTR_WRITE (R487). -/
def execStagePtrWrite (src : Source) (v : Word) (s : State) : Host.Outcome State Fault Refusal := wr src Reg.splStagePtr v s
/-- STAGE_DATA_WRITE (R481). -/
def execStageDataWrite (src : Source) (v : Word) (s : State) : Host.Outcome State Fault Refusal := wr src Reg.splStageData v s
/-- COMMIT_WRITE (R493, R494). -/
def execCommitWrite (src : Source) (frame : Word) (s : State) : Host.Outcome State Fault Refusal :=
  wr src Reg.splCommitFrame frame s
/-- SPLICE_CANCEL (R490): CANCEL alone is written. -/
def execSpliceCancel (src : Source) (s : State) : Host.Outcome State Fault Refusal := wrBytes src Reg.splCtrl 0x100 0x2 s
/-- SYS_OWNER_WRITE (R878). -/
def execSysOwnerWrite (src : Source) (v : Word) (s : State) : Host.Outcome State Fault Refusal := wr src Reg.sysOwner v s

/-- TWB_CONTROLLER_GO (R709). -/
def execTwbControllerGo (src : Source) (v : Word) (s : State) : Host.Outcome State Fault Refusal :=
  wr src Reg.twbCtrl (putBit v 31 true) s
/-- ROPE_XFER_GO (R637). -/
def execRopeXferGo (src : Source) (v : Word) (s : State) : Host.Outcome State Fault Refusal :=
  wr src Reg.ropXfer (putBit v 31 true) s
/-- REEL_CHANNEL_ENABLE (R603). -/
def execReelChannelEnable (src : Source) (ch : Fin 8) (v : Word) (s : State) : Host.Outcome State Fault Refusal :=
  wr src (Reg.rel ch.val 0) (putBit v 31 true) s
/-- REEL_CHANNEL_STOP (R602). -/
def execReelChannelStop (src : Source) (ch : Fin 8) (v : Word) (s : State) : Host.Outcome State Fault Refusal :=
  wr src (Reg.rel ch.val 0) (putBit v 31 false) s
/-- DIRECT_TRANSACTION (R598): GO is written 1. -/
def execDirectTransaction (src : Source) (v : Word) (s : State) : Host.Outcome State Fault Refusal :=
  wr src Reg.xpDcmd (putBit v 15 true) s
/-- GPIO_WRITE (R883). -/
def execGpioWrite (src : Source) (out : Bool) (v : Word) (s : State) : Host.Outcome State Fault Refusal :=
  wr src (if out then Reg.gpioOut else Reg.gpioDir) v s

/-! ### Reads with an effect (R887) -/

/-- A read of register r whose effect a program or a bus master asks for. -/
def rd (src : Source) (r : Nat) (s : State) : State :=
  if pinModes s.power.mode && !s.power.factory then readEffect s src r else s

/-- EVENT_TAKE (R333): by your Slack program, while it issues. -/
def execEventTake (s : State) : Host.Outcome State Fault Refusal :=
  .next (if issuer s == some false then readEffect s .slack Reg.layEvtTake else s)
/-- HAL_BUF_WRITE (R733). -/
def execHalBufWrite (src : Source) (v : Word) (s : State) : Host.Outcome State Fault Refusal := wr src Reg.halBuf v s
/-- HAL_BUF_READ (R733). -/
def execHalBufRead (src : Source) (s : State) : Host.Outcome State Fault Refusal := .next (rd src Reg.halBuf s)
/-- TWB_CBUF_ACCESS (R710). -/
def execTwbCbufAccess (src : Source) (w : Option Word) (s : State) : Host.Outcome State Fault Refusal :=
  match w with
  | some v => wr src Reg.twbCbuf v s
  | none => .next (rd src Reg.twbCbuf s)
/-- ROP_BUFDATA_ACCESS (R635). -/
def execRopBufdataAccess (src : Source) (w : Option Word) (s : State) : Host.Outcome State Fault Refusal :=
  match w with
  | some v => wr src Reg.ropBufdata v s
  | none => .next (rd src Reg.ropBufdata s)

/-! ### The rope's take-over, the WAKE line -/

/-- TAKEOVER (R667): by silence, or by a write of MASTER. -/
def execTakeover (w : Option RegWrite) (s : State) : Host.Outcome State Fault Refusal :=
  match w with
  | some x => wr x.src Reg.ropCfg (putBit x.val 31 true) s
  | none =>
    .next (if pinModes s.power.mode && getB s Reg.ropCfg 30 && getF s Reg.ropCfg 29 28 == 0 && !getB s Reg.ropCfg 31
      then takeOver s else s)

/-- WAKE_PULSE (R255): the pulse that a wake calls for, or a write of PULSE. -/
def execWakePulse (w : Option RegWrite) (s : State) : Host.Outcome State Fault Refusal :=
  match w with
  | some x => wr x.src Reg.pwrWakeEn (putBit x.val 31 true) s
  | none => .next (duePulse s)

/-! ### Whipping units and monitors (18_whipping_and_tally.md) -/

/-- WHIP_START (R843). -/
def execWhipStart (src : Source) (u : Fin 4) (v : Word) (s : State) : Host.Outcome State Fault Refusal :=
  wr src (Reg.whp u.val 0) (putBit v 0 true) s
/-- WHIP_FEED (R841, R842). -/
def execWhipFeed (src : Source) (u : Fin 4) (reg : FeedReg) (v : Word) (s : State) : Host.Outcome State Fault Refusal :=
  wr src (Reg.whp u.val (match reg with
    | .feed8 => 4
    | .feed16 => 5
    | .feed32 => 6)) v s
/-- WHIP_CHECK (R849). -/
def execWhipCheck (src : Source) (u : Fin 4) (v : Word) (s : State) : Host.Outcome State Fault Refusal :=
  wr src (Reg.whp u.val 0) (putBit v 1 true) s
/-- WHIP_BYTE (R844). -/
def execWhipByte (u : Fin 4) (s : State) : Host.Outcome State Fault Refusal := .next (whipClock s u.val)
/-- The queued bytes of a unit are processed. -/
def whipDrain (u : Nat) : Nat → State → State
  | 0, s => s
  | n + 1, s => whipDrain u n (whipClock s u)
/-- WHIP_COMPARE (R849, R850). -/
def execWhipCompare (u : Fin 4) (s : State) : Host.Outcome State Fault Refusal :=
  match (whipUnit s u.val).check with
  | some n => .next (whipDrain u.val n s)
  | none => .next s

/-- MON_SRC_WRITE (R866, R867, R896). -/
def execMonSrcWrite (src : Source) (n : Fin 8) (v : Word) (s : State) : Host.Outcome State Fault Refusal :=
  wr src (Reg.mon n.val 0) v s
/-- MON_SAMPLE (R862). -/
def execMonSample (s : State) : Host.Outcome State Fault Refusal := .next { s with tally := tallyClock s.tally }

/-! ### The log and FAULT# -/

/-- LOG_ENTRY_WRITE (R456). -/
def execLogEntryWrite (s : State) : Host.Outcome State Fault Refusal := .next (logStep s)
/-- LOG_FREEZE_EXPIRE (R459). -/
def execLogFreezeExpire (s : State) : Host.Outcome State Fault Refusal := .next (setB s Reg.cltLogHead 22 false)
/-- FAULT_PIN_HOLD_END (R472). -/
def execFaultPinHoldEnd (s : State) : Host.Outcome State Fault Refusal :=
  .next (pinSettle { s with cleat := { s.cleat with pinHold := false } })

/-! ### Supplies -/

/-- VCC_MEASUREMENT (R244, R85): LOW by the threshold of R85 with its hysteresis. -/
def execVccMeasurement (mv : BitVec 16) (s : State) : Host.Outcome State Fault Refusal :=
  match s.power.mode with
  | .off | .dormant | .standby => .next s
  | _ =>
    let low := if mv.toNat < 2900 then true else if mv.toNat ≥ 2950 then false else s.power.vccLow
    let t := setF { s with power := { s.power with vccLow := low } } Reg.pwrVmon 15 0 mv.toNat
    let t := if decide (3000 ≤ mv.toNat) && decide (mv.toNat ≤ 5500) then xpSettle t else t
    .next (pinSettle (if low then setB t Reg.pwrVmon 30 true else t))

/-- VDDX_VALID (R82, R79), while VCC is up (R84, R85). -/
def execVddxValid (mv : BitVec 16) (s : State) : Host.Outcome State Fault Refusal :=
  let t := { s with power := { s.power with vddxMv := mv.toNat } }
  .next (if s.power.mode == .off || s.power.vccLow then t else xpSettle t)

end Sys2Proof.Machine
end

