-- ==== Sys2Proof/Machine/Dispatch.lean ====
section
/-! DEFINITION. One arm per command of the opcode table: a direct call of its meaning. -/

namespace Sys2Proof.Machine

/-- The effect of a command on everything but the queue. -/
def exec (i : Instr) (s : State) : Host.Outcome State Fault Refusal :=
  match i with
  | .powerOnResetRelease b => Sys2Proof.Machine.execPowerOnResetRelease b s
  | .powerLoss => Sys2Proof.Machine.execPowerLoss s
  | .resetPinPulse b => Sys2Proof.Machine.execResetPinPulse b s
  | .supplyLow => Sys2Proof.Machine.execSupplyLow s
  | .thermalShutdown => Sys2Proof.Machine.execThermalShutdown s
  | .fsInputChange levels => Sys2Proof.Machine.execFsInputChange levels s
  | .referenceQualified code => Sys2Proof.Machine.execReferenceQualified code s
  | .noReference => Sys2Proof.Machine.execNoReference s
  | .pllLock => Sys2Proof.Machine.execPllLock s
  | .pllNoLock => Sys2Proof.Machine.execPllNoLock s
  | .startAttempt bistOk sfdp => Sys2Proof.Machine.execStartAttempt bistOk sfdp s
  | .ropeNoImage => Sys2Proof.Machine.execRopeNoImage s
  | .startWindowClose => Sys2Proof.Machine.execStartWindowClose s
  | .frameTick t => Sys2Proof.Machine.execFrameTick t s
  | .lightTick => Sys2Proof.Machine.execLightTick s
  | .enterHoldover => Sys2Proof.Machine.execEnterHoldover s
  | .holdoverTimeout => Sys2Proof.Machine.execHoldoverTimeout s
  | .frameOverrun => Sys2Proof.Machine.execFrameOverrun s
  | .slackWatchdog => Sys2Proof.Machine.execSlackWatchdog s
  | .nop f => Sys2Proof.Machine.execNop f s
  | .mov f => Sys2Proof.Machine.execMov f s
  | .add f => Sys2Proof.Machine.execAdd f s
  | .sub f => Sys2Proof.Machine.execSub f s
  | .neg f => Sys2Proof.Machine.execNeg f s
  | .abs f => Sys2Proof.Machine.execAbs f s
  | .and f => Sys2Proof.Machine.execAnd f s
  | .or f => Sys2Proof.Machine.execOr f s
  | .xor f => Sys2Proof.Machine.execXor f s
  | .not f => Sys2Proof.Machine.execNot f s
  | .shl f => Sys2Proof.Machine.execShl f s
  | .shr f => Sys2Proof.Machine.execShr f s
  | .shrl f => Sys2Proof.Machine.execShrl f s
  | .cmp f => Sys2Proof.Machine.execCmp f s
  | .tst f => Sys2Proof.Machine.execTst f s
  | .min f => Sys2Proof.Machine.execMin f s
  | .max f => Sys2Proof.Machine.execMax f s
  | .mpy f => Sys2Proof.Machine.execMpy f s
  | .mac f => Sys2Proof.Machine.execMac f s
  | .msu f => Sys2Proof.Machine.execMsu f s
  | .multiplyComplete => Sys2Proof.Machine.execMultiplyComplete s
  | .lda f => Sys2Proof.Machine.execLda f s
  | .sta f => Sys2Proof.Machine.execSta f s
  | .clra f => Sys2Proof.Machine.execClra f s
  | .scale f => Sys2Proof.Machine.execScale f s
  | .bxclr f => Sys2Proof.Machine.execBxclr f s
  | .bcc f => Sys2Proof.Machine.execBcc f s
  | .call f => Sys2Proof.Machine.execCall f s
  | .ret f => Sys2Proof.Machine.execRet f s
  | .loop f => Sys2Proof.Machine.execLoop f s
  | .endLay f => Sys2Proof.Machine.execEnd f s
  | .mode f => Sys2Proof.Machine.execMode f s
  | .yield f => Sys2Proof.Machine.execYield f s
  | .movi f => Sys2Proof.Machine.execMovi f s
  | .clamp f => Sys2Proof.Machine.execClamp f s
  | .lerp f => Sys2Proof.Machine.execLerp f s
  | .tlu f => Sys2Proof.Machine.execTlu f s
  | .splc f => Sys2Proof.Machine.execSplc f s
  | .evt f => Sys2Proof.Machine.execEvt f s
  | .strandWriteBack => Sys2Proof.Machine.execStrandWriteBack s
  | .mapWalk va late => Sys2Proof.Machine.execMapWalk va s late
  | .externalPageRead va late => Sys2Proof.Machine.execExternalPageRead va late s
  | .eccWriteBack => Sys2Proof.Machine.execEccWriteBack s
  | .logEntryWrite => Sys2Proof.Machine.execLogEntryWrite s
  | .logFreezeExpire => Sys2Proof.Machine.execLogFreezeExpire s
  | .slackStarved => Sys2Proof.Machine.execSlackStarved s
  | .eventTake => Sys2Proof.Machine.execEventTake s
  | .modeReqQuiesce src standby => Sys2Proof.Machine.execModeReqQuiesce src standby s
  | .modeReqWorkshop src => Sys2Proof.Machine.execModeReqWorkshop src s
  | .modeReqResume src => Sys2Proof.Machine.execModeReqResume src s
  | .modeReqWorkshopRun src => Sys2Proof.Machine.execModeReqWorkshopRun src s
  | .modeReqWorkshopRestart src => Sys2Proof.Machine.execModeReqWorkshopRestart src s
  | .modeReqStandbyDormant src => Sys2Proof.Machine.execModeReqStandbyDormant src s
  | .modeReqStandbyRaise src four => Sys2Proof.Machine.execModeReqStandbyRaise src four s
  | .leaveLimpRestart src => Sys2Proof.Machine.execLeaveLimpRestart src s
  | .leaveLimpWorkshop src => Sys2Proof.Machine.execLeaveLimpWorkshop src s
  | .leaveLimpDormant src => Sys2Proof.Machine.execLeaveLimpDormant src s
  | .sysReset src => Sys2Proof.Machine.execSysReset src s
  | .quiesceComplete => Sys2Proof.Machine.execQuiesceComplete s
  | .sysFrameWrite src v => Sys2Proof.Machine.execSysFrameWrite src v s
  | .clkNudgeWrite src v => Sys2Proof.Machine.execClkNudgeWrite src v s
  | .budgetRegisterWrite src walk v => Sys2Proof.Machine.execBudgetRegisterWrite src walk v s
  | .rateWrite src v => Sys2Proof.Machine.execRateWrite src v s
  | .stepWrite src v => Sys2Proof.Machine.execStepWrite src v s
  | .mapL1BaseWrite src v => Sys2Proof.Machine.execMapL1BaseWrite src v s
  | .invalidateAll src => Sys2Proof.Machine.execInvalidateAll src s
  | .invalidateVpn src vpn => Sys2Proof.Machine.execInvalidateVpn src vpn s
  | .pinPage src vpn => Sys2Proof.Machine.execPinPage src vpn s
  | .logClear src => Sys2Proof.Machine.execLogClear src s
  | .watchdogKick src => Sys2Proof.Machine.execWatchdogKick src s
  | .stagePtrWrite src v => Sys2Proof.Machine.execStagePtrWrite src v s
  | .stageDataWrite src v => Sys2Proof.Machine.execStageDataWrite src v s
  | .commitWrite src frame => Sys2Proof.Machine.execCommitWrite src frame s
  | .spliceCancel src => Sys2Proof.Machine.execSpliceCancel src s
  | .zcTimeout ch => Sys2Proof.Machine.execZcTimeout ch s
  | .backfillComplete => Sys2Proof.Machine.execBackfillComplete s
  | .ownershipLapse => Sys2Proof.Machine.execOwnershipLapse s
  | .sysOwnerWrite src v => Sys2Proof.Machine.execSysOwnerWrite src v s
  | .registerWrite src page index v rivals => Sys2Proof.Machine.execRegisterWrite src page index v s rivals
  | .monitorWindowEnd dev others => Sys2Proof.Machine.execMonitorWindowEnd dev s others
  | .sourceLost code rc => Sys2Proof.Machine.execSourceLost code rc s
  | .pllSlewLock offset => Sys2Proof.Machine.execPllSlewLock offset s
  | .referenceRevert code => Sys2Proof.Machine.execReferenceRevert code s
  | .startPulse => Sys2Proof.Machine.execStartPulse s
  | .wake srcs => Sys2Proof.Machine.execWake srcs s
  | .wakeTimer => Sys2Proof.Machine.execWakeTimer s
  | .wakePulse w => Sys2Proof.Machine.execWakePulse w s
  | .wakePulseEnd => Sys2Proof.Machine.execWakePulseEnd s
  | .linWakeSend w lrxDominant => Sys2Proof.Machine.execLinWakeSend w lrxDominant s
  | .linWakeEnd lrxDominant => Sys2Proof.Machine.execLinWakeEnd lrxDominant s
  | .linWakeRetry lrxDominant => Sys2Proof.Machine.execLinWakeRetry lrxDominant s
  | .linBusIdle => Sys2Proof.Machine.execLinBusIdle s
  | .uartCharacter c => Sys2Proof.Machine.execUartCharacter c s
  | .halBufWrite src v => Sys2Proof.Machine.execHalBufWrite src v s
  | .halBufRead src => Sys2Proof.Machine.execHalBufRead src s
  | .linBreak bits => Sys2Proof.Machine.execLinBreak bits s
  | .linSync b clocks badStop => Sys2Proof.Machine.execLinSync b clocks s badStop
  | .linPid pid badStop => Sys2Proof.Machine.execLinPid pid s badStop
  | .paramIn => Sys2Proof.Machine.execParamIn s
  | .trigger => Sys2Proof.Machine.execTrigger s
  | .goToSleep => Sys2Proof.Machine.execGoToSleep s
  | .linPublish bitErr => Sys2Proof.Machine.execLinPublish bitErr s
  | .noResp => Sys2Proof.Machine.execNoResp s
  | .triggerTimeout => Sys2Proof.Machine.execTriggerTimeout s
  | .paramRetry => Sys2Proof.Machine.execParamRetry s
  | .twbCmdIdent pec n => Sys2Proof.Machine.execTwbCmdIdent pec n s
  | .twbCmdStatus pec plain n => Sys2Proof.Machine.execTwbCmdStatus pec plain n s
  | .twbCmdReason pec n => Sys2Proof.Machine.execTwbCmdReason pec n s
  | .twbCmdMode t => Sys2Proof.Machine.execTwbCmdMode t s
  | .paramSet t => Sys2Proof.Machine.execParamSet t s
  | .paramGet t => Sys2Proof.Machine.execParamGet t s
  | .twbCmdReply pec n => Sys2Proof.Machine.execTwbCmdReply pec n s
  | .slackCommandDone => Sys2Proof.Machine.execSlackCommandDone s
  | .pointerPlaneWrite data => Sys2Proof.Machine.execPointerPlaneWrite data s
  | .pointerPlaneRead n => Sys2Proof.Machine.execPointerPlaneRead n s
  | .bulkChunk data late => Sys2Proof.Machine.execBulkChunk data s late
  | .bulkStateRead n => Sys2Proof.Machine.execBulkStateRead n s
  | .twbWakeAddress plane => Sys2Proof.Machine.execTwbWakeAddress plane s
  | .twbSclLow => Sys2Proof.Machine.execTwbSclLow s
  | .twbSdaLow => Sys2Proof.Machine.execTwbSdaLow s
  | .twbControllerGo src v => Sys2Proof.Machine.execTwbControllerGo src v s
  | .twbTransferDone e => Sys2Proof.Machine.execTwbTransferDone e s
  | .twbAddressRetry => Sys2Proof.Machine.execTwbAddressRetry s
  | .arbitrationLost => Sys2Proof.Machine.execArbitrationLost s
  | .twbControllerSclTimeout => Sys2Proof.Machine.execTwbControllerSclTimeout s
  | .busRecovery => Sys2Proof.Machine.execBusRecovery s
  | .sdaWaitClear => Sys2Proof.Machine.execSdaWaitClear s
  | .busStuck => Sys2Proof.Machine.execBusStuck s
  | .twbCbufAccess src w => Sys2Proof.Machine.execTwbCbufAccess src w s
  | .twbiWrite => Sys2Proof.Machine.execTwbiWrite s
  | .twbiDelay => Sys2Proof.Machine.execTwbiDelay s
  | .twbiEnd => Sys2Proof.Machine.execTwbiEnd s
  | .ropeNop x => Sys2Proof.Machine.execRopeNop x s
  | .ropeIdent x => Sys2Proof.Machine.execRopeIdent x s
  | .ropeStatus x => Sys2Proof.Machine.execRopeStatus x s
  | .ropeRead x => Sys2Proof.Machine.execRopeRead x s
  | .ropeWrite x => Sys2Proof.Machine.execRopeWrite x s
  | .cells x => Sys2Proof.Machine.execCells x s
  | .setFrame x => Sys2Proof.Machine.execSetFrame x s
  | .time x => Sys2Proof.Machine.execTime x s
  | .leaveLimp x => Sys2Proof.Machine.execLeaveLimp x s
  | .imgChunk x => Sys2Proof.Machine.execImgChunk x s
  | .imgState x => Sys2Proof.Machine.execImgState x s
  | .ropeReplyReady => Sys2Proof.Machine.execRopeReplyReady s
  | .ropeXferGo src v => Sys2Proof.Machine.execRopeXferGo src v s
  | .xferDone rx => Sys2Proof.Machine.execXferDone rx s
  | .ropBufdataAccess src w => Sys2Proof.Machine.execRopBufdataAccess src w s
  | .takeover w => Sys2Proof.Machine.execTakeover w s
  | .ropeModeFault => Sys2Proof.Machine.execRopeModeFault s
  | .enumeration found => Sys2Proof.Machine.execEnumeration found s
  | .reelChannelEnable src ch v => Sys2Proof.Machine.execReelChannelEnable src ch v s
  | .reelChannelStop src ch v => Sys2Proof.Machine.execReelChannelStop src ch v s
  | .leaseGrant => Sys2Proof.Machine.execLeaseGrant s
  | .pageReady ch => Sys2Proof.Machine.execPageReady ch s
  | .channelDone ch => Sys2Proof.Machine.execChannelDone ch s
  | .xpLeaseRevoked addr => Sys2Proof.Machine.execXpLeaseRevoked addr s
  | .xpRecovery sfdp => Sys2Proof.Machine.execXpRecovery sfdp s
  | .xpCfgApply => Sys2Proof.Machine.execXpCfgApply s
  | .directTransaction src v => Sys2Proof.Machine.execDirectTransaction src v s
  | .directTransactionEnd data => Sys2Proof.Machine.execDirectTransactionEnd data s
  | .xpTimeout => Sys2Proof.Machine.execXpTimeout s
  | .whipStart src u v => Sys2Proof.Machine.execWhipStart src u v s
  | .whipFeed src u reg v => Sys2Proof.Machine.execWhipFeed src u reg v s
  | .whipByte u => Sys2Proof.Machine.execWhipByte u s
  | .whipCheck src u v => Sys2Proof.Machine.execWhipCheck src u v s
  | .whipCompare u => Sys2Proof.Machine.execWhipCompare u s
  | .monSrcWrite src n v => Sys2Proof.Machine.execMonSrcWrite src n v s
  | .monSample => Sys2Proof.Machine.execMonSample s
  | .thermalMeasure m => Sys2Proof.Machine.execThermalMeasure m s
  | .irefCheck ohms => Sys2Proof.Machine.execIrefCheck ohms s
  | .diagStepBegin => Sys2Proof.Machine.execDiagStepBegin s
  | .diagSample v => Sys2Proof.Machine.execDiagSample v s
  | .faultPinHoldEnd => Sys2Proof.Machine.execFaultPinHoldEnd s
  | .asrcAcquiring out ratio => Sys2Proof.Machine.execAsrcAcquiring out ratio s
  | .asrcLocked out ratio ms => Sys2Proof.Machine.execAsrcLocked out ratio ms s
  | .asrcNoClock out => Sys2Proof.Machine.execAsrcNoClock out s
  | .asrcPhaseLoss out => Sys2Proof.Machine.execAsrcPhaseLoss out s
  | .portOverrun out => Sys2Proof.Machine.execPortOverrun out s
  | .converterUnderrun out => Sys2Proof.Machine.execConverterUnderrun out s
  | .gpioWrite src out v => Sys2Proof.Machine.execGpioWrite src out v s
  | .vccMeasurement mv => Sys2Proof.Machine.execVccMeasurement mv s
  | .characterSent => Sys2Proof.Machine.execCharacterSent s
  | .vddxValid mv => Sys2Proof.Machine.execVddxValid mv s

end Sys2Proof.Machine
end

