-- ==== Sys2Proof/Machine/Pins.lean ====
section
/-! DEFINITION. The pins: what each one is and what it shows in a state (02_pins_package_electrical.md, R71, R73, R74, R80
to R82). Every level is a function of State; no pin holds state of its own. -/

namespace Sys2Proof.Machine

/-- The signals of Table 2.2; numbers count from 0. -/
inductive Pin where
  | pgnd | vcc | vddx | vcore | gnd | iref | xck | xckN | xds | xrst | rck | rss | scl | sda | lrx | ltx | mclk
  | abck | afs | ado | cdo | adi | bbck | bfs | bdi | xti | xto | fsync | start | reset | wake | fault | test
  | out (n : Nat) | xcs (d : Nat) | xdq (k : Nat) | rd (k : Nat) | rsel (k : Nat) | strap (k : Nat) | fs (k : Nat)
  | ntc (k : Nat)
  deriving DecidableEq, Repr

/-- Type codes of Table 2.2. -/
inductive PinType where
  | input | output | bidir | openDrain | analogue | highVolt | power
  deriving DecidableEq, Repr

/-- Supply domains of Table 2.2. -/
inductive PinDomain where
  | alwaysOn | vcc | vddx
  deriving DecidableEq, Repr

/-- What the device does at a pin. -/
inductive PinDrive where
  | supply | highZ | low | high
  /-- An input with no pull. -/
  | input
  | pullUp | pullDown
  /-- Driven by its port, at the level of the transfer in hand or at the port's idle level. -/
  | port
  /-- A sink conducts, or does not. -/
  | sink (on : Bool)
  /-- The 1.200 V reference is applied. -/
  | reference
  /-- The oscillator is enabled. -/
  | oscillator
  deriving DecidableEq, Repr

/-- Pins 1 to 100 (Table 2.1). -/
def pinList : List Pin :=
  [.pgnd, .out 0, .out 1, .out 2, .out 3, .out 4, .out 5, .pgnd, .out 6, .out 7, .out 8, .out 9, .out 10, .out 11,
   .pgnd, .out 12, .out 13, .out 14, .out 15, .out 16, .out 17, .pgnd, .out 18, .out 19, .out 20]
  ++ [.out 21, .out 22, .out 23, .iref, .gnd, .vcc, .ntc 0, .ntc 1, .strap 0, .strap 1, .strap 2, .strap 3, .strap 4,
   .strap 5, .strap 6, .fs 0, .fs 1, .fs 2, .wake, .reset, .fault, .test, .vcore, .gnd, .xti]
  ++ [.xto, .gnd, .vcc, .scl, .sda, .lrx, .ltx, .fsync, .start, .mclk, .abck, .afs, .ado, .adi, .cdo, .bbck, .bfs, .bdi,
   .vcore, .gnd, .rck, .rd 0, .rd 1, .rd 2, .rd 3]
  ++ [.rss, .rsel 0, .rsel 1, .rsel 2, .rsel 3, .rsel 4, .rsel 5, .rsel 6, .rsel 7, .vddx, .xrst, .xcs 0, .xcs 1, .xck,
   .xckN, .xds, .xdq 0, .xdq 1, .xdq 2, .xdq 3, .xdq 4, .xdq 5, .xdq 6, .xdq 7, .vddx]

/-- The Type column. -/
def pinType : Pin → PinType
  | .pgnd | .vcc | .vddx | .vcore | .gnd => .power
  | .out _ => .highVolt
  | .iref | .xti | .xto | .strap _ | .ntc _ => .analogue
  | .xck | .xckN | .xcs _ | .xrst | .ltx | .ado | .cdo => .output
  | .xdq _ | .rck | .rd _ | .rss | .rsel _ | .abck | .afs | .fsync => .bidir
  | .scl | .sda | .wake | .fault => .openDrain
  | .xds | .lrx | .mclk | .adi | .bbck | .bfs | .bdi | .start | .reset | .fs _ | .test => .input

/-- The Domain column; a supply pin has none. -/
def pinDomain : Pin → Option PinDomain
  | .pgnd | .vcc | .vddx | .vcore | .gnd => none
  | .out _ | .iref | .scl | .sda | .lrx | .reset | .wake | .fault | .fs _ => some .alwaysOn
  | .xck | .xckN | .xcs _ | .xdq _ | .xds | .xrst => some .vddx
  | _ => some .vcc

/-- The Reset column (R74). -/
def pinReset : Pin → PinDrive
  | .pgnd | .vcc | .vddx | .vcore | .gnd => .supply
  | .out _ => .sink false
  | .iref | .strap _ | .ntc _ => .highZ
  | .xck | .xrst | .ado | .cdo | .fault => .low
  | .xckN | .xcs _ | .ltx => .high
  | .xdq _ | .xds | .rck | .rd _ | .rsel _ | .abck | .afs | .adi | .bbck | .bfs | .bdi | .fsync | .start | .test | .fs _ =>
    .pullDown
  | .rss | .reset => .pullUp
  | .scl | .sda | .lrx | .mclk | .wake => .input
  | .xti | .xto => .oscillator

/-- The DORMANT column where it differs from the Reset column, beside the sinks, IREF, FAULT# and WAKE. -/
def pinDormant : Pin → PinDrive
  | .xck | .xckN | .xdq _ | .xds => .highZ
  | .xcs _ => .pullUp
  | .xti | .xto => .highZ
  | p => pinReset p

/-- RAISE has configured the pins' functions: its step 9 is done. -/
def pinsConfigured (s : State) : Bool :=
  match s.power.mode with
  | .run | .holdover | .workshop | .quiesce | .limp | .standby => true
  | .raise => s.power.raise == .firstFrame || s.power.raise == .ropeWait
  | .off | .dormant => false

/-- A sink is enabled, or conducts in fail-safe drive (Table 2.2, IREF). -/
def sinksUsed (s : State) : Bool :=
  (List.range 24).any (fun n => sinkDac s n != 0 || (pinModes s.power.mode && getB s (Reg.snkCfg n) 31))

/-- The XRST# pulse of step 3 of Table 9.9 (R465, R582): LOW µs from the revocation, and again every 100 ms while the
device does not answer (R467). -/
def xrstPulse (s : State) : Bool :=
  let since := s.clock.time - s.xp.resetAt
  let since := if s.xp.blocked then since % (100 * clocksPerMs) else since
  s.xp.recovering && s.xp.resetDevs == 3 && getB s Reg.xpResetCfg 31
    && decide (since * 1000 < getF s Reg.xpResetCfg 15 8 * clocksPerMs)

/-- A transfer holds the X-port. -/
def xpBusy (s : State) : Bool := s.xp.holder.isSome || !s.xp.slackReads.isEmpty

/-- The X-port's pins outside DORMANT: at rest XCK is low and XCK# high whatever XCKN holds (R567). -/
def xportPin (s : State) (p : Pin) : PinDrive :=
  if p = .xrst then (if s.power.xrstLow || xrstPulse s then .low else .high)
  else if !s.power.xpValid then .highZ
  else if xpBusy s && s.xp.io != 0 && p != .xds then .port
  else pinReset p

/-- The device masters the rope in a mode that serves it (R623). -/
def ropeMaster (s : State) : Bool := pinModes s.power.mode && getB s Reg.ropCfg 31

/-- GPIO and select pin k (R623, R629, R883). -/
def rselPin (s : State) (k : Nat) : PinDrive :=
  if s.power.mode == .standby then .pullDown
  else if k < selectPins s then
    (if ropeMaster s then (if s.rope.lastCode.getLsbD k then .high else .low) else .pullDown)
  else if getB s Reg.gpioDir k then (if getB s Reg.gpioOut k then .high else .low)
  else .pullDown

/-- LTX (R722, R756, Table 2.2): recessive but for a wake-up signal, a response or a character that is sent. -/
def ltxPin (s : State) : PinDrive :=
  match s.hal.wake, s.hal.phase with
  | .signal _, _ => .low
  | _, .publish _ _ => .port
  | _, _ => if s.hal.shift.isSome then .port else .high

/-- A pin whose function RAISE has configured. -/
def pinFunction (s : State) : Pin → PinDrive
  | .rck => if ropeMaster s then .port else .pullDown
  | .rsel k => rselPin s k
  | .fsync =>
    if ropeMaster s && getF s Reg.ropCfg 29 28 == 0 then
      (if decide (s.clock.slot < budget s / 2) then .high else .low)
    else .pullDown
  | .ltx => ltxPin s
  | .abck | .afs => if aOn s && !audSlave (aCfg s) && portClocks s then .port else .pullDown
  | .ado => if aOn s && portClocks s then .port else .low
  | .cdo => if cOn s && portClocks s then .port else .low
  | p => pinReset p

/-- What the device does at a pin (R73, R74, R80 to R82, Table 2.2). -/
def pinState (s : State) (p : Pin) : PinDrive :=
  match p with
  | .out n => .sink (sinkOn s n)
  | .iref => if sinksUsed s then .reference else .highZ
  | .fault => if s.power.mode == .off || s.cleat.pinLow then .low else .highZ
  | .wake => if s.power.wakeLow then .low else .input
  | .xrst | .xck | .xckN | .xds | .xcs _ | .xdq _ =>
    if s.power.mode == .dormant then pinDormant p else xportPin s p
  | _ =>
    if s.power.mode == .dormant then pinDormant p
    else if s.power.factory || !pinsConfigured s then pinReset p
    else pinFunction s p

end Sys2Proof.Machine
end

