-- ==== Sys2Proof/WellFormed.lean ====
section
/-! DEFINITION. Which commands are well formed: those that the hardware's surroundings can give. A command that is not
still has an effect in the machine, so that no step is without one; nothing here restricts the meanings. -/

namespace Sys2Proof

/-- A source code of Table 5.1. -/
def refCodeOk (code : BitVec 3) : Bool := decide (1 ≤ code.toNat) && decide (code.toNat ≤ 4)

/-- A converter buffer holds at most 32 samples (R797). -/
def TickIn.ok (t : TickIn) : Bool := decide (t.heldIn.toNat ≤ 32) && decide (t.heldOut.toNat ≤ 32)

/-- The opcode of an exchange's header, bits [31:24] of its first word (R642). -/
def Exchange.opcode (x : Exchange) : Nat :=
  match x.words with
  | h :: _ => h.toNat / 2 ^ 24
  | [] => 0

/-- A whole number of words carries the opcodes of its row (Table 13.7). -/
def Exchange.ok (x : Exchange) (op : Nat → Bool) : Bool := x.words.isEmpty || op x.opcode

/-- An enumeration finds each select code once (R672). -/
def foundOk (fs : List Found) : Bool := decide ((fs.map (·.code)).Nodup)

/-- Planes of the two-wire bus: command, pointer and bulk (R703). -/
def planeOk (plane : BitVec 2) : Bool := plane != 3

/-- An instruction of program memory comes from words: its row's opcode fits its form, and a reserved opcode stands for
itself (R381, R384, R385, R409). -/
def formOfWords (i : Instr) : Bool := (opcodeOf i).isNone || encodable i

/-- A command that the surroundings can give. -/
def Instr.WellFormed : Instr → Bool
  | .referenceQualified code => refCodeOk code
  | .sourceLost code _ => refCodeOk code
  | .referenceRevert code => refCodeOk code
  | .frameTick t => t.ok
  | .ropeNop x => x.ok (fun op => op == 0 || decide (op ≥ 0x0B))
  | .ropeIdent x => x.ok (· == 1)
  | .ropeStatus x => x.ok (· == 2)
  | .ropeRead x => x.ok (· == 3)
  | .ropeWrite x => x.ok (· == 4)
  | .cells x => x.ok (· == 5)
  | .setFrame x => x.ok (· == 6)
  | .time x => x.ok (· == 7)
  | .leaveLimp x => x.ok (· == 8)
  | .imgChunk x => x.ok (· == 9)
  | .imgState x => x.ok (· == 0x0A)
  | .enumeration found => foundOk found
  | .twbWakeAddress plane => planeOk plane
  | i => formOfWords i

end Sys2Proof
end

