-- ==== Sys2Proof/Safety.lean ====
section
/-! DEFINITION. What a safe run of the block is, and what every state that a step reaches from a safe one keeps:
canonical stores, and counts and depths inside the bounds that the spec gives them. -/

namespace Sys2Proof.Machine

/-- The RAMs and port cells are in canonical form: equal memories are equal data. -/
def Mem.wf (m : Mem) : Bool :=
  swf zero m.prog0 && swf zero m.prog1 && swf zero m.table0 && swf zero m.table1 && swf zero m.deck && swf zero m.line
    && swf zero m.strand && swf zero m.port && swf (Config.extByte m.epoch) m.ext

/-- The stores of a state are in canonical form: memories, register file, rope and two-wire buffers. -/
def State.storesOk (s : State) : Bool :=
  s.mem.wf && swf regReset s.regs && swf zero s.rope.tx && swf zero s.rope.rx && swf zero s.twb.cbuf

/-- A step went well: it answers a next state, and was no refusal and no fault. -/
def wentOn (o : Host.Outcome State Fault Refusal) : Prop := ∃ t, o = .next t

/-- Every command that waits is well formed. -/
def State.queueOk (s : State) : Bool := s.pending.all Instr.WellFormed

/-- A state from which runs are judged: canonical stores and a well-formed queue. -/
def State.safe (s : State) : Bool := s.storesOk && s.queueOk

/-- The state after n steps, or none after a fault or a refusal. -/
def runN : Nat → State → Option State
  | 0, s => some s
  | n + 1, s =>
    match step s with
    | .next t => runN n t
    | _ => none

/-- Every prefix of the run of n steps goes on. -/
def safeRun (n : Nat) (s : State) : Bool := (runN n s).isSome

end Sys2Proof.Machine
end

