-- ==== Sys2Proof/Certificates/Slice0/Obligations.lean ====
section
/-! DEFINITION. The statements for the provers, and the few words they share (namespace Claim). -/

namespace Sys2Proof.Machine.Claim

/-- The command is carried out: the block answers a next state, and P holds of it. -/
def Does (c : Instr) (s : State) (P : State → Prop) : Prop := ∃ t, exec c s = .next t ∧ P t

/-! ### Instructions -/

/-- The accesses r run to their end from state s, answer x, and leave the state and the stalls of w. -/
def Gives {α : Type} (r : Run α) (s : State) (x : α) (w : Work) : Prop := r.run.run { st := s, stall := 0 } = (.ok x, w)

/-- The operands of a data instruction are located in the order of R437: first source, second source, destination. -/
def operands (lay : Bool) (c : Ctx) (d : Option Opnd) (o1 : Opnd) (o2 : Option Opnd) : Run (Loc × Loc × Option Loc) := do
  let l1 ← locOf lay c .read o1 0
  let l2 ← match o2 with
    | some o => locOf lay c .read o 0
    | none => pure .nothing
  let ld ← match d with
    | some o => do let l ← locOf lay c .write o 0
                   pure (some l)
    | none => pure none
  return (l1, l2, ld)

/-- The state at the start of the issue slot, after the stalls of w (R429). -/
def slotStart (w : Work) : State := passSlots w.st w.stall

/-- The instruction words of f in context lay are fetched and the accesses r made without a fault, and its slot is one of
the context's, before the fence or the end of the frame: the instruction issues (R429, R43, R27). -/
structure Issues {α : Type} (s : State) (lay : Bool) (f : Form) (r : Run α) (x : α) (w : Work) : Prop where
  turn  : issuer s = some lay
  whole : ¬(formLen f = 2 ∧ (ctxOf s lay).pc = 0x1FFF)
  found : Gives (do fetchCheck lay (formLen f); r) s x w
  early : (slotStart w).clock.slot < slotLimit (slotStart w) lay

/-- The data instructions of R411 that compute a cell: what they compute, opcode, command. -/
def aluRows : List (Alu × Nat × (Form → Instr)) := [
  (.mov, 0x01, .mov), (.add, 0x02, .add), (.sub, 0x03, .sub), (.neg, 0x04, .neg), (.abs, 0x05, .abs),
  (.and, 0x06, .and), (.or, 0x07, .or), (.xor, 0x08, .xor), (.not, 0x09, .not), (.shl, 0x0A, .shl),
  (.shr, 0x0B, .shr), (.shrl, 0x0C, .shrl), (.cmp, 0x0D, .cmp), (.tst, 0x0E, .tst), (.min, 0x0F, .min),
  (.max, 0x10, .max)]

/-- The legality of a data instruction's form (R402). -/
def aluLegal (op : Alu) (f : Form) : Bool :=
  let (d, o1, o2) := aluRoles (aluUnary op) (aluDest op) f
  formOk f && opndOk o1 && optOk o2 && optDst d && decide (fidMults (o1 :: o2.toList) ≤ 4)

/-- A 24-bit result lies within a cell. -/
def Fits24 (v : Int) : Prop := -8388608 ≤ v ∧ v ≤ 8388607

/-- sat24 of an exact result, with V and S, in words of the rule (R411, R349). -/
def IsSat24 (v : Int) (sat : Bool) (res : Res24) : Prop :=
  (Fits24 v → res.r.toInt = v ∧ res.fx.v = some false ∧ res.fx.s = false)
  ∧ (¬Fits24 v → sat = true → res.r.toInt = (if v > 0 then 8388607 else -8388608) ∧ res.fx.v = some true ∧ res.fx.s = true)
  ∧ (¬Fits24 v → sat = false → res.r = BitVec.ofInt 24 v ∧ res.fx.v = some true ∧ res.fx.s = false)

/-- Z and N describe the result (R353, Table 8.12). -/
def ZN (res : Res24) : Prop := res.fx.z = some (decide (res.r = 0)) ∧ res.fx.n = some (decide (res.r.toInt < 0))

/-- The carry or borrow of a data instruction, where its row of Table 8.12 gives C (R411). -/
def carryOf (op : Alu) (a b : Cell) (c : Nat) : Option Bool :=
  match op with
  | .add => some (decide (a.toNat + b.toNat ≥ 2 ^ 24))
  | .sub | .cmp => some (decide (a.toNat < b.toNat))
  | .shl => if c > 0 then some (a.toNat.testBit (24 - c)) else none
  | .shr | .shrl => if c > 0 then some (a.toNat.testBit (c - 1)) else none
  | _ => none

end Sys2Proof.Machine.Claim

open Sys2Proof Sys2Proof.Machine Sys2Proof.Machine.Claim

/-! ### The machine as a whole -/

/-- A step is the effect of the oldest waiting command on the state with the rest of the queue; with none waiting the
block idles (the model's choice: log entry 1). -/
def Obligations.StepRunsTheOldestCommand : Prop :=
  (∀ (c : Instr) (q : List Instr) (s : State), step { s with pending := c :: q } = exec c { s with pending := q })
  ∧ ∀ s : State, s.pending = [] → step s = .next s

/-- Reset values of Tables 19.2 to 19.4: page, offset, value. -/
def Sys2Proof.Machine.Claim.resetTable : List (Nat × Nat × Word) := [
  (0x00, 0x04, 0x0E054096), (0x00, 0x14, 0x00000003), (0x00, 0x1C, 0), (0x00, 0x24, 0), (0x00, 0x28, 0), (0x00, 0x2C, 0),
  (0x00, 0x30, 0x00000001), (0x00, 0x34, 0x000000E7), (0x00, 0x38, 0), (0x01, 0x04, 0x00000001), (0x01, 0x0C, 0x00080000),
  (0x01, 0x10, 0x00080802), (0x01, 0x18, 0), (0x01, 0x24, 0x00040000), (0x02, 0x20, 0), (0x03, 0x04, 0x081430A0),
  (0x03, 0x08, 0), (0x03, 0x0C, 0), (0x03, 0x10, 0x00000064), (0x03, 0x14, 0xF0000000), (0x05, 0x04, 0x10001001),
  (0x05, 0x08, 0x00000100), (0x05, 0x0C, 0x00000020), (0x05, 0x24, 0x00000101), (0x05, 0x2C, 0), (0x05, 0x30, 0),
  (0x06, 0x18, 0x00000010), (0x07, 0x04, 0), (0x08, 0x08, 0x00600000), (0x08, 0x18, 0x00000200), (0x09, 0x04, 0x00000010),
  (0x09, 0x08, 0x03004000), (0x09, 0x18, 0x14000200), (0x09, 0x1C, 0x000000C8)]

/-- What reset leaves (R177, R875, R407): RAISE, every register of the tables at its reset value, the log empty, both
contexts with BX at 23 and MODE at 0b00110. That the queue is empty, and every RAM cell 0, is said too.
Resting on the model's choices in log entries 5, 6 and 31. -/
def Obligations.ResetState : Prop :=
  let s := State.reset
  s.pending = [] ∧ s.power.mode = .raise
  ∧ (∀ e ∈ resetTable, viewReg s .slack (64 * e.1 + e.2.1 / 4) = e.2.2)
  ∧ (∀ e, e < 16 → getB s (Reg.log e 0) 18 = false)
  ∧ (∀ lay, (ctxOf s lay).mode = 0b00110 ∧ (ctxOf s lay).bx = 23 ∧ (ctxOf s lay).f = 0 ∧ (ctxOf s lay).coil = []
      ∧ (ctxOf s lay).hitch = [] ∧ ∀ n, vget (ctxOf s lay).a n 0 = 0)
  ∧ (∀ a, sget zero s.mem.deck a = 0 ∧ sget zero s.mem.strand a = 0 ∧ sget zero s.mem.table0 a = 0
      ∧ sget zero s.mem.line a = 0 ∧ sget zero s.mem.prog0 a = 0)

/-- Every store of the reset state is in canonical form.
Resting on the model's choice in log entry 6. -/
def Obligations.ResetStoresAreCanonical : Prop := State.reset.storesOk = true

/-- Every step keeps every store canonical: addresses strictly rising, nothing listed that an unlisted address reads as.
Resting on the model's choice in log entry 6. -/
def Obligations.StepKeepsStoresCanonical : Prop :=
  ∀ s t : State, s.storesOk = true → step s = .next t → t.storesOk = true

/-- Canonical stores that read alike at every address are the same list.
Resting on the model's choice in log entry 6. -/
def Obligations.CanonicalStoresAreEqualWhenTheyReadAlike : Prop :=
  ∀ (w : Nat) (d : Nat → BitVec w) (m n : List (Nat × BitVec w)), swf d m = true → swf d n = true →
    (∀ a, sget d m a = sget d n a) → m = n

/-- A field written in a register reads back, and every other bit of every register stays. -/
def Obligations.RegisterFieldReadsBack : Prop :=
  ∀ (s : State) (r hi lo v : Nat), lo ≤ hi → hi < 32 →
    getF (setF s r hi lo v) r hi lo = v % 2 ^ (hi + 1 - lo)
    ∧ (∀ n, n < 32 → (n < lo ∨ hi < n) → getB (setF s r hi lo v) r n = getB s r n)
    ∧ (∀ q, q ≠ r → getReg (setF s r hi lo v) q = getReg s q)

/-! ### Instructions: the data instructions -/

/-- R411, R428, R429: each data instruction that issues reads its sources in its slot and, at its end, writes the result
and the flags of its row; whole-accumulator sources that saturate set S (R403).
Resting on the model's choices in log entries 4 and 33. -/
def Obligations.DataInstructionsComplete : Prop :=
  ∀ (op : Alu) (opc : Nat) (mk : Form → Instr), (op, opc, mk) ∈ aluRows →
  ∀ (f : Form) (s : State) (lay : Bool) (d : Option Opnd) (o1 : Opnd) (o2 : Option Opnd) (l1 l2 : Loc) (ld : Option Loc)
    (w : Work), aluRoles (aluUnary op) (aluDest op) f = (d, o1, o2) → aluLegal op f = true →
    Issues s lay f (operands lay (ctxOf s lay) d o1 o2) (l1, l2, ld) w →
    let c := ctxOf s lay
    let m := modsOf c f
    let x := readLoc (slotStart w) lay m l1
    let y := readLoc x.2 lay m l2
    let sat := locSats (slotStart w) lay m l1 || locSats (slotStart w) lay m l2
    exec (mk f) s = .next (finish
      (writeResult y.2 lay m (postsOf c o1 ++ optPosts c o2 ++ optPosts c d) ld
        (withS (aluRes op x.1 y.1 (intValue l2 y.1) m.sat) sat)) lay (formLen f) {})

/-- R402, R431, R444: a data instruction of an illegal form is annulled with ILLEGAL_OP and its first word.
Resting on the model's choice in log entry 4. -/
def Obligations.IllegalDataInstructionsAreAnnulled : Prop :=
  ∀ (op : Alu) (opc : Nat) (mk : Form → Instr), (op, opc, mk) ∈ aluRows →
  ∀ (f : Form) (s : State) (lay : Bool) (w : Work), aluLegal op f = false →
    issuer s = some lay → ¬(formLen f = 2 ∧ (ctxOf s lay).pc = 0x1FFF) →
    Gives (fetchCheck lay (formLen f)) s () w → (slotStart w).clock.slot < slotLimit (slotStart w) lay →
    exec (mk f) s = .next (annul (slotStart w) lay (formLen f) .illegalOp (BitVec.ofNat 32 (firstWord opc f).toNat) none)

/-- R411: ADD, SUB, CMP, NEG, ABS and SHL give the exact result under sat24, with Z, N, V, C and S. R411: the bitwise, move, choice and right-shift instructions, with Z, N, V and C; none of them sets S. -/
def Obligations.ArithmeticAndLogicalResults : Prop :=
  (∀ (a b : Cell) (n : Int) (sat : Bool),
      let c := min (n % 32).toNat 24
      (∀ e ∈ [(Alu.add, a.toInt + b.toInt, sat), (.sub, a.toInt - b.toInt, sat), (.cmp, a.toInt - b.toInt, false),
          (.neg, -a.toInt, sat), (.abs, (Int.ofNat a.toInt.natAbs), sat), (.shl, a.toInt * 2 ^ c, sat)],
        let res := aluRes e.1 a b n sat
        IsSat24 e.2.1 e.2.2 res ∧ ZN res ∧ res.fx.c = carryOf e.1 a b c))
  ∧ (∀ (a b : Cell) (n : Int) (sat : Bool),
      let c := min (n % 32).toNat 24
      (∀ i, i < 24 →
        (aluRes .and a b n sat).r.getLsbD i = (a.getLsbD i && b.getLsbD i)
        ∧ (aluRes .tst a b n sat).r.getLsbD i = (a.getLsbD i && b.getLsbD i)
        ∧ (aluRes .or a b n sat).r.getLsbD i = (a.getLsbD i || b.getLsbD i)
        ∧ (aluRes .xor a b n sat).r.getLsbD i = (a.getLsbD i != b.getLsbD i)
        ∧ (aluRes .not a b n sat).r.getLsbD i = !a.getLsbD i
        ∧ (aluRes .shrl a b n sat).r.getLsbD i = a.getLsbD (i + c)
        ∧ (aluRes .shr a b n sat).r.getLsbD i = (if i + c < 24 then a.getLsbD (i + c) else a.msb))
      ∧ (aluRes .mov a b n sat).r = a
      ∧ (aluRes .min a b n sat).r.toInt = min a.toInt b.toInt ∧ (aluRes .max a b n sat).r.toInt = max a.toInt b.toInt
      ∧ (∀ op ∈ [Alu.and, .or, .xor, .not, .tst, .shr, .shrl], (aluRes op a b n sat).fx.v = some false)
      ∧ (∀ op ∈ [Alu.mov, .min, .max], (aluRes op a b n sat).fx.v = none)
      ∧ (∀ op ∈ [Alu.mov, .and, .or, .xor, .not, .tst, .min, .max, .shr, .shrl],
          ZN (aluRes op a b n sat) ∧ (aluRes op a b n sat).fx.s = false ∧ (aluRes op a b n sat).fx.c = carryOf op a b c))

/-- Where a result goes and what it leaves alone (R269, R396, R397, R401, R355): the destination holds it, other cells,
accumulators, pointers and flags are as the slot's end left them.
Resting on the model's choice in log entry 33. -/
def Obligations.ResultReachesOnlyItsDestination : Prop :=
  ∀ (s : State) (lay : Bool) (m : Mods) (posts : List (Nat × Cell)) (dst : Option Loc) (res : Res24),
    let s1 := passSlots s 1
    let c1 := applyPosts (ctxOf s1 lay) posts
    let t := writeResult s lay m posts dst res
    (∀ n, dst = some (.deck n) → sget zero t.mem.deck n = res.r ∧ (∀ a, a ≠ n → sget zero t.mem.deck a = sget zero s1.mem.deck a)
      ∧ t.mem.strand = s1.mem.strand ∧ t.mem.line = s1.mem.line ∧ t.mem.port = s1.mem.port ∧ t.regs = s1.regs)
    ∧ (∀ n, dst = some (.strand n) → t.lay.store = some (n, res.r) ∧ t.mem = s1.mem ∧ t.regs = s1.regs)
    ∧ (∀ n, n < 16 → dst = some (.reg n) → vget (ctxOf t lay).p n 0 = res.r ∧ (∀ k, k ≠ n → vget (ctxOf t lay).p k 0 = vget c1.p k 0)
      ∧ (ctxOf t lay).a = c1.a ∧ t.mem = s1.mem ∧ t.regs = s1.regs)
    ∧ (∀ n p, n < 4 → dst = some (.part n p) → vget (ctxOf t lay).a n 0 = writePart (vget c1.a n 0) p res.r
      ∧ (∀ k, k ≠ n → vget (ctxOf t lay).a k 0 = vget c1.a k 0) ∧ (ctxOf t lay).p = c1.p ∧ t.mem = s1.mem)
    ∧ (∀ n, n < 4 → dst = some (.acc n) → vget (ctxOf t lay).a n 0 = ldaConv m.int res.r
      ∧ (∀ k, k ≠ n → vget (ctxOf t lay).a k 0 = vget c1.a k 0) ∧ (ctxOf t lay).p = c1.p ∧ t.mem = s1.mem)
    ∧ (dst = some (.reg 0x18) → (ctxOf t lay).f = BitVec.ofNat 6 res.r.toNat ∧ (ctxOf t lay).p = c1.p ∧ t.mem = s1.mem)
    ∧ (dst = none → t.mem = s1.mem ∧ t.regs = s1.regs ∧ (ctxOf t lay).p = c1.p ∧ (ctxOf t lay).a = c1.a)
    ∧ ((∃ n, dst = some (.deck n) ∨ dst = some (.strand n)) → m.trk = true →
        (ctxOf t lay).bx = min c1.bx (headroom res.r) ∧ (ctxOf t lay).f = putFlag (applyFlags c1.f res.fx) fBV true)
    ∧ (m.trk = false → ∀ l, dst = some l → (∀ n, l ≠ .reg n) → (∀ r, l ≠ .winLow r ∧ l ≠ .winHigh r) →
        (∀ k, l ≠ .port k) → (ctxOf t lay).bx = c1.bx ∧ (ctxOf t lay).f = applyFlags c1.f res.fx)
    ∧ ((∀ l, dst = some l → (∀ r, l ≠ .winLow r ∧ l ≠ .winHigh r) ∧ ∀ k, l ≠ .port k) →
        ctxOf t (!lay) = ctxOf s1 (!lay) ∧ t.map = s1.map ∧ t.clock = s1.clock ∧ t.power = s1.power)

/-! ### Instructions: accumulators, block exponent, long forms -/

namespace Sys2Proof.Machine.Claim

/-- The two runs of a multiply's sources are located, lane by lane (R437, R339). -/
def lanes (lay : Bool) (c : Ctx) (o1 o2 : Opnd) (n1 n2 : Nat) : Run (List Loc × List Loc) := do
  let a ← runLocs lay c o1 n1 0
  let b ← runLocs lay c o2 n2 0
  return (a, b)

/-- The operands of CLAMP and LERP are located: two sources, then the destination that is read and written. -/
def operandsBoth (lay : Bool) (c : Ctx) (d o1 o2 : Opnd) : Run (Loc × Loc × Loc) := do
  let l1 ← locOf lay c .read o1 0
  let l2 ← locOf lay c .read o2 0
  let ld ← locOf lay c .both d 0
  return (l1, l2, ld)

/-- The multiplies: what they do to the accumulator, opcode, command. -/
def mulRows : List (MulOp × Nat × (Form → Instr)) := [(.set, 0x11, .mpy), (.add, 0x12, .mac), (.sub, 0x13, .msu)]

/-- The end of the slot, with the pointers that the operands post-modify (R396). -/
def slotEnd (s : State) (lay : Bool) (posts : List (Nat × Cell)) : State :=
  let e := passSlots s 1
  setCtx e lay (applyPosts (ctxOf e lay) posts)

/-- The context of a state replaced by f of it. -/
def onCtx (s : State) (lay : Bool) (f : Ctx → Ctx) : State := setCtx s lay (f (ctxOf s lay))

end Sys2Proof.Machine.Claim

/-- R419, R420, Table 7.4, R403: LDA loads a whole accumulator from its source and touches no flag; STA writes the
conversion of its accumulator, with V, S, Z and N. R348, R349, Table 7.4: what STA stores. In fraction interpretation it is bits [47:24], rounded half up when rounding
is on and limited when saturation is on; V says that the rounded value lies outside a cell. LDA undoes it exactly.
Resting on the model's choice in log entry 4. -/
def Obligations.AccumulatorLoadStoreAndConversions : Prop :=
  ((∀ (f : Form) (s : State) (lay : Bool) (d o : Opnd) (l : Loc) (w : Work), ldaRoles f = (d, o) →
      (formOk f && isAcc d && opndOk o && decide (fidMults [o] ≤ 4)) = true → Issues s lay f (locOf lay (ctxOf s lay) .read o 0) l w →
      let m := modsOf (ctxOf s lay) f
      let x := readLoc (slotStart w) lay m l
      let v := if isAcc o then vget (ctxOf (slotStart w) lay).a (accNo o) 0 else ldaConv m.int x.1
      exec (.lda f) s = .next (finish
        (onCtx (slotEnd x.2 lay (postsOf (ctxOf s lay) o)) lay (fun c => { c with a := vset c.a (accNo d) v })) lay (formLen f) {}))
    ∧ (∀ (f : Form) (s : State) (lay : Bool) (d o : Opnd) (l : Loc) (w : Work), staRoles f = (d, o) →
      (formOk f && isAcc o && dstOk d && !isAcc d) = true → Issues s lay f (locOf lay (ctxOf s lay) .write d 0) l w →
      let m := modsOf (ctxOf s lay) f
      let x := staConv (vget (ctxOf (slotStart w) lay).a (accNo o) 0) m
      exec (.sta f) s = .next (finish
        (writeResult (slotStart w) lay m (postsOf (ctxOf s lay) d) (some l)
          ⟨x.1, { z := some (x.1 == 0), n := some x.1.msb, v := some x.2.1, s := x.2.2 }⟩) lay (formLen f) {})))
  ∧ (∀ (a : Acc) (x : Cell) (m : Mods), m.int = false →
      (let v := a.toInt + (if m.half then 2 ^ 23 else 0)
       ((-(2 : Int) ^ 47 ≤ v ∧ v < 2 ^ 47) → (staConv a m).1.toInt = v / 2 ^ 24 ∧ (staConv a m).2 = (false, false))
       ∧ (v ≥ 2 ^ 47 → m.sat = true → staConv a m = (0x7FFFFF, true, true))
       ∧ (v < -(2 : Int) ^ 47 → m.sat = true → staConv a m = (0x800000, true, true))
       ∧ ((v ≥ 2 ^ 47 ∨ v < -(2 : Int) ^ 47) → m.sat = false → (staConv a m).2 = (true, false)))
      ∧ (ldaConv false x).toInt = x.toInt * 2 ^ 24
      ∧ staConv (ldaConv false x) { m with half := false } = (x, false, false))

/-- R421, R356, R411: CLRA clears the accumulators of its mask, BXCLR sets BX to 23 and BV to 0, MOVI writes its 24-bit
immediate, NOP does nothing for one slot; CLRA, BXCLR and NOP change no flag but BV.
Resting on the model's choice in log entry 4. -/
def Obligations.ClearMoveImmediateAndNopComplete : Prop :=
  (∀ (aux : BitVec 2) (x y : BitVec 12) (s : State) (lay : Bool) (w : Work), Issues s lay (.short aux x y) (pure () : Run Unit) () w →
    exec (.nop (.short aux x y)) s = .next (finish (passSlots (slotStart w) 1) lay 1 {})
    ∧ exec (.bxclr (.short aux x y)) s = .next (finish
        (onCtx (passSlots (slotStart w) 1) lay (fun c => { c with bx := 23, f := putFlag c.f fBV false })) lay 1 {})
    ∧ ∃ e, exec (.clra (.short aux x y)) s = .next (finish (onCtx (passSlots (slotStart w) 1) lay (fun c => { c with a := e })) lay 1 {})
        ∧ ∀ n, n < 4 → vget e n 0 = if y.getLsbD n then 0 else vget (ctxOf (passSlots (slotStart w) 1) lay).a n 0)
  ∧ (∀ (c1 c2 : BitVec 12) (fm : BitVec 3) (fpl : BitVec 20) (s : State) (lay : Bool) (l : Loc) (w : Work),
      let f := Form.long 0 0 false 0 0 false c1 fm fpl c2
      let d := fullOpnd fm fpl
      dstOk d = true → Issues s lay f (locOf lay (ctxOf s lay) .write d 0) l w →
      let v : Cell := c1 ++ c2
      exec (.movi f) s = .next (finish
        (writeResult (slotStart w) lay (modsOf (ctxOf s lay) f) (postsOf (ctxOf s lay) d) (some l)
          ⟨v, { z := some (v == 0), n := some v.msb }⟩) lay 2 {}))

/-- R412, R413: CLAMP and LERP read their destination too, and write the limited or moved value.
Resting on the model's choice in log entry 4. -/
def Obligations.ClampAndLerpComplete : Prop :=
  ∀ (f : Form) (s : State) (lay : Bool) (d o1 o2 : Opnd) (l1 l2 ld : Loc) (w : Work), isLong f = true → longRoles f = (d, o1, o2) →
    (formOk f && opndOk o1 && opndOk o2 && dstOk d) = true →
    Issues s lay f (operandsBoth lay (ctxOf s lay) d o1 o2) (l1, l2, ld) w →
    let c := ctxOf s lay
    let m := modsOf c f
    let x := readLoc (slotStart w) lay m l1
    let y := readLoc x.2 lay m l2
    let z := readLoc y.2 lay m ld
    let sat := locSats (slotStart w) lay m l1 || locSats (slotStart w) lay m l2 || locSats (slotStart w) lay m ld
    let posts := postsOf c o1 ++ postsOf c o2 ++ postsOf c d
    (fidMults [o1, o2] ≤ 4 →
      exec (.clamp f) s = .next (finish (writeResult z.2 lay m posts (some ld) (withS (clampRes z.1 x.1 y.1) sat)) lay 2 {}))
    ∧ (1 + fidMults [o1, o2] ≤ 4 →
      exec (.lerp f) s = .next (finish (writeResult z.2 lay m posts (some ld) (withS (lerpRes z.1 x.1 y.1 m) sat)) lay 2 {}))

/-- R412, R413, R414: what CLAMP, LERP and TLU compute. CLAMP gives min(max(dst, lo), hi), so hi where lo exceeds it, and
C tells that it changed dst. LERP gives dst + (x − dst) × t in units of 2^-23, rounded as the instruction says. TLU takes
entry and fraction from its index. -/
def Obligations.ClampLerpAndTableResults : Prop :=
  ∀ (d a b : Cell) (m : Mods) (fr : Nat),
    ((clampRes d a b).r.toInt = min (max d.toInt a.toInt) b.toInt ∧ ZN (clampRes d a b)
      ∧ (clampRes d a b).fx.c = some (decide ((clampRes d a b).r ≠ d)) ∧ (clampRes d a b).fx.v = some false)
    ∧ (IsSat24 (d.toInt + ((a.toInt - d.toInt) * b.toInt + (if m.half then 2 ^ 22 else 0)) / 2 ^ 23) m.sat (lerpRes d a b m)
      ∧ ZN (lerpRes d a b m) ∧ (lerpRes d a b m).fx.c = none)
    ∧ (fr < 256 → (tluRes a b fr m).r.toInt = a.toInt + ((b.toInt - a.toInt) * fr + (if m.half then 128 else 0)) / 256
      ∧ ZN (tluRes a b fr m) ∧ (tluRes a b fr m).fx.v = none)
    ∧ (tluIndex d false = if d.toInt < 0 then (0, 0) else (d.toNat / 2 ^ 15, d.toNat / 2 ^ 7 % 256))
    ∧ (tluIndex d true).1 = (min (max d.toInt 0) 255).toNat

/-- R414: TLU interpolates between two neighbouring cells of its table, in Table RAM or in the Deck. R415: SCALE shifts a cell as 24 bits under sat24, or a whole accumulator as 56 bits under the limit of R335, by
BX − t; with BV at 0 the operand passes unshifted. The result goes to a cell as it stands or converted as STA converts,
to an accumulator as it stands or loaded as LDA loads.
Resting on the model's choices in log entries 4 and 32. -/
def Obligations.TableLookupAndScaleComplete : Prop :=
  (∀ (f : Form) (s : State) (lay inTable : Bool) (d o1 o2 : Opnd) (b : Nat) (l2 ld : Loc) (w : Work), isLong f = true →
      longRoles f = (d, o1, o2) → tluBase (ctxOf s lay) o1 = some (inTable, b) → b + 256 < (if inTable then 8192 else 4096) →
      (formOk f && opndOk o2 && dstOk d && decide (1 + fidMults [o2] ≤ 4)) = true →
      let c := ctxOf s lay
      let m := modsOf c f
      let cell := fun (q : State) k => if inTable then tableCell q k else sget zero q.mem.deck k
      Issues s lay f (do let a ← locOf lay c .read o2 0
                         let e ← locOf lay c .write d 0
                         return (a, e)) (l2, ld) w →
      (∀ e ∈ w.st.mem.ecc, e.ram ≠ (if inTable then tableRam w.st else RamId.deck)) →
      let x := readLoc (slotStart w) lay m l2
      let i := tluIndex x.1 m.int
      exec (.tlu f) s = .next (finish
        (writeResult x.2 lay m (postsOf c o1 ++ postsOf c o2 ++ postsOf c d) (some ld)
          (withS (tluRes (cell x.2 (b + i.1)) (cell x.2 (b + i.1 + 1)) i.2 m) (locSats (slotStart w) lay m l2))) lay 2 {}))
  ∧ (∀ (f : Form) (s : State) (lay : Bool) (d o ot : Opnd) (l lt ld : Loc) (w : Work), scaleRoles f = (d, o, ot) →
      (formOk f && (isCellOpnd o || isAcc o) && opndOk o && opndOk ot && dstOk d && (isCellOpnd d || isAcc d)
        && decide (fidMults [o, ot] ≤ 4) && (!isImm ot || (decide (0 ≤ immOf ot) && decide (immOf ot ≤ 7)))) = true →
      Issues s lay f (do let a ← locOf lay (ctxOf s lay) .read o 0
                         let b ← locOf lay (ctxOf s lay) .read ot 0
                         let e ← locOf lay (ctxOf s lay) .write d 0
                         return (a, b, e)) (l, lt, ld) w →
      (let t := intValue lt (peekLoc (slotStart w) lay (modsOf (ctxOf s lay) f) lt)
       0 ≤ t ∧ t ≤ 7) →
      let m := modsOf (ctxOf s lay) f
      let c := ctxOf (slotStart w) lay
      let posts := postsOf (ctxOf s lay) o ++ postsOf (ctxOf s lay) ot ++ postsOf (ctxOf s lay) d
      let x := readLoc (slotStart w) lay m l
      let y := readLoc x.2 lay m lt
      let sh := Int.ofNat c.bx - intValue lt y.1
      let on := c.f.getLsbD 5
      let tSat := locSats (slotStart w) lay m lt
      let accOut := fun (a : Acc) (fx : FlagFx) => onCtx (slotEnd y.2 lay posts) lay (fun c =>
        { c with a := vset c.a (accNo d) a,
                 f := applyFlags c.f { fx with z := some (a == 0), n := some a.msb, s := fx.s || tSat } })
      let cell := scaleCell x.1 sh on m
      let whole := scaleAcc (vget c.a (accNo o) 0) sh on
      let back := staConv whole.1 m
      ∃ t, exec (.scale f) s = .next (finish t lay (formLen f) {})
        ∧ (isAcc o = false → isAcc d = false → t = writeResult y.2 lay m posts (some ld) (withS cell tSat))
        ∧ (isAcc o = false → isAcc d = true → t = accOut (ldaConv m.int cell.r) cell.fx)
        ∧ (isAcc o = true → isAcc d = false → t = writeResult y.2 lay m posts (some ld)
            ⟨back.1, { z := some (back.1 == 0), n := some back.1.msb, v := some back.2.1, s := back.2.2 || whole.2 || tSat }⟩)
        ∧ (isAcc o = true → isAcc d = true → t = accOut whole.1 (if on then { v := some whole.2, s := whole.2 } else {})))

/-- R337 to R343, R416: a multiply forms its lane products in its slot and enters flight with two slots to go; its
accumulators and flags do not change in its own slot. R343, R353, R416, R417, R335, R403: a multiply that completes sets, adds
to or subtracts from its accumulator, limited to −2^54 to 2^54 − 1; V tells that a limit was reached, S is set with V and where
a whole-accumulator source saturated, and nothing else of the context changes.
Resting on the model's choice in log entry 4. -/
def Obligations.MultipliesEnterFlightAndComplete : Prop :=
  (∀ (op : MulOp) (opc : Nat) (mk : Form → Instr), (op, opc, mk) ∈ mulRows →
    ∀ (f : Form) (s : State) (lay : Bool) (d o1 o2 : Opnd) (ls1 ls2 : List Loc) (w : Work), mulRoles f = (d, o1, o2) →
      let c := ctxOf s lay
      let m := modsOf c f
      let wide := decide (m.lanes > 1)
      (formOk f && isAcc d && opndOk o1 && opndOk o2 && lanesDst m.lanes (accNo d)
        && (!wide || (runOk c m.lanes (if m.xs then o1 else o2) && !isFid o1 && !isFid o2))
        && decide (m.lanes + fidMults [o1, o2] ≤ 4)) = true →
      Issues s lay f (lanes lay c o1 o2 (if wide && m.xs then m.lanes else 1) (if wide && !m.xs then m.lanes else 1)) (ls1, ls2) w →
      let xs := readLocs (slotStart w) lay m ls1
      let ys := readLocs xs.2 lay m ls2
      let prods := if wide && m.xs then products m.int (ys.1.headD 0) xs.1 else products m.int (xs.1.headD 0) ys.1
      let sat := (ls1 ++ ls2).any (locSats (slotStart w) lay m)
      let e := slotEnd ys.2 lay (postsOf c o1 ++ postsOf c o2)
      exec (mk f) s = .next (finish { e with lay := { e.lay with flight := e.lay.flight ++ [⟨lay, 2, op, accNo d, prods, sat⟩] } } lay (formLen f) {}))
  ∧ ((∀ (s : State) (m : InFlight) (rest : List InFlight), s.lay.flight = m :: rest → 1 ≤ m.left → m.left ≤ 2 →
      (∀ x ∈ rest, m.left < x.left) → s.clock.slot + m.left ≤ s.clock.frameLen →
      Does .multiplyComplete s (fun t => ctxOf t m.lay = mulApply (ctxOf s m.lay) m ∧ ctxOf t (!m.lay) = ctxOf s (!m.lay)
        ∧ t.lay.flight = rest.map (fun x => { x with left := x.left - m.left })
        ∧ t.clock.slot = s.clock.slot + m.left ∧ t.clock.time = s.clock.time + m.left ∧ t.mem.deck = s.mem.deck))
    ∧ (∀ (c : Ctx) (lay sat : Bool) (left base : Nat) (op : MulOp) (p : Int), base < 4 →
        let old := (vget c.a base 0).toInt
        let v := match op with
          | .set => p
          | .add => old + p
          | .sub => old - p
        let t := mulApply c ⟨lay, left, op, base, [p], sat⟩
        (vget t.a base 0).toInt = max (-(2 : Int) ^ 54) (min (2 ^ 54 - 1) v)
        ∧ (t.f.getLsbD 1 = decide (v > 2 ^ 54 - 1 ∨ v < -(2 : Int) ^ 54))
        ∧ (t.f.getLsbD 4 = (c.f.getLsbD 4 || t.f.getLsbD 1 || sat))
        ∧ (∀ n, n ≠ 1 → n ≠ 4 → t.f.getLsbD n = c.f.getLsbD n)
        ∧ (∀ n, n ≠ base → vget t.a n 0 = vget c.a n 0)
        ∧ t.p = c.p ∧ t.m = c.m ∧ t.l = c.l ∧ t.bx = c.bx ∧ t.coil = c.coil ∧ t.hitch = c.hitch ∧ t.pc = c.pc))

/-- R269, R271: a waiting Strand RAM store is written, and a corrected word is written back; every other cell stays.
Resting on the model's choice in log entry 2. -/
def Obligations.WriteBacksComplete : Prop :=
  (∀ (s : State) (a : Nat) (v : Cell), s.lay.store = some (a, v) →
    Does .strandWriteBack s (fun t => sget zero t.mem.strand a = v ∧ (∀ b, b ≠ a → sget zero t.mem.strand b = sget zero s.mem.strand b)
      ∧ t.lay.store = none ∧ t.mem.deck = s.mem.deck ∧ t.mem.line = s.mem.line ∧ t.regs = s.regs
      ∧ (∀ lay, ctxOf t lay = ctxOf s lay)))
  ∧ (∀ (s : State) (e : EccError), s.mem.ecc.find? (fun e => e.found && !e.double) = some e →
    Does .eccWriteBack s (fun t => eccAt t.mem e.ram e.addr = none
      ∧ (∀ r a, (r, a) ≠ (e.ram, e.addr) → eccAt t.mem r a = eccAt s.mem r a)
      ∧ t.mem.deck = s.mem.deck ∧ t.mem.strand = s.mem.strand ∧ t.regs = s.regs ∧ t.lay = s.lay))

/-! ### Instructions: control flow, MODE, END, YIELD, SPLC, EVT -/

/-- R354, R363, R366, R368, R369, R422: outside a delay slot B<cc>, CALL and RET take up a branch whose delay slot is the
next instruction. B<cc> is taken when its condition holds, CALL and RET always; CALL pushes the address after its delay
slot on the Coil, dropping the oldest of 8 entries under wrap; RET pops its target. Under trap a ninth CALL is annulled
with COIL_OVERFLOW, and a RET on an empty Coil with COIL_UNDERFLOW. R364: a branch, LOOP or END in a delay slot is annulled with ILLEGAL_OP.
Resting on the model's choices in log entries 4, 34 and 35. -/
def Obligations.BranchInstructionsComplete : Prop :=
  (∀ (aux : BitVec 2) (x y : BitVec 12) (s : State) (lay : Bool) (w : Work),
      let f := Form.short aux x y
      let c := ctxOf s lay
      let e := passSlots (slotStart w) 1
      let target : PAddr := BitVec.ofNat 13 (x.toNat % 2 * 4096 + y.toNat)
      Issues s lay f (pure () : Run Unit) () w → c.branch = none →
      exec (.bcc f) s = .next (finish e lay 1
          { branch := some ⟨(ctxOf (slotStart w) lay).pc, target, true, false, condHolds (x.toNat / 256) (ctxOf (slotStart w) lay)⟩ })
      ∧ ((c.coil.length < 8 ∨ getB w.st Reg.layCoilCfg (if lay then 0 else 8) = false) →
          exec (.call f) s = .next (finish (onCtx e lay (fun c => { c with coil := ((c.pc + 2) :: c.coil).take 8 })) lay 1
            { branch := some ⟨(ctxOf e lay).pc, target, false, true, true⟩ }))
      ∧ (c.coil.length ≥ 8 → getB w.st Reg.layCoilCfg (if lay then 0 else 8) = true →
          exec (.call f) s = .next (annul (slotStart w) lay 1 .coilOverflow 8 none))
      ∧ (∀ t ts, c.coil = t :: ts → exec (.ret f) s = .next (finish (onCtx e lay (fun c => { c with coil := c.coil.drop 1 })) lay 1
            { branch := some ⟨(ctxOf e lay).pc, t, false, false, true⟩ }))
      ∧ (c.coil = [] → exec (.ret f) s = .next (annul (slotStart w) lay 1 .coilUnderflow 0 none)))
  ∧ (∀ (mk : Form → Instr) (opc : Nat), (mk, opc) ∈ [(Instr.bcc, 0x19), (.call, 0x1A), (.ret, 0x1B), (.loop, 0x1C), (.endLay, 0x1D)] →
    ∀ (aux : BitVec 2) (x y : BitVec 12) (s : State) (lay : Bool) (w : Work), Issues s lay (.short aux x y) (pure () : Run Unit) () w →
      (ctxOf s lay).branch ≠ none →
      exec (mk (.short aux x y)) s = .next (annul (slotStart w) lay 1 .illegalOp
        (BitVec.ofNat 32 (opc * 2 ^ 26 + aux.toNat * 2 ^ 24 + x.toNat * 2 ^ 12 + y.toNat)) none))

/-- Table 7.7: the branch conditions on the flags. R360, R363, R366, R370 to R376: where control flow goes. Outside delay slots and bodies it goes on in sequence; after
a delay slot a taken branch reaches its target, and a CALL's Coil top is the address after the delay slot; the last
instruction of a body loops back while iterations are left, the innermost body first, and else goes on; a body that is
active elsewhere neither loops nor ends; a MODE takes effect after the instruction that follows it.
Resting on the model's choices in log entries 34, 35, 36 and 91. -/
def Obligations.ConditionsAndControlFlowAdvance : Prop :=
  (∀ c : Ctx,
      let z := c.f.getLsbD 3
      let n := c.f.getLsbD 2
      let v := c.f.getLsbD 1
      let cy := c.f.getLsbD 0
      let sv := c.f.getLsbD 4
      let bv := c.f.getLsbD 5
      (List.range 16).map (fun cc => condHolds cc c) =
        [true, z, !z, n, !n, v, !v, cy, !cy, n == v, n != v, !z && (n == v), z || (n != v), sv, !sv, bv])
  ∧ (∀ (c : Ctx) (len : Nat), (len = 1 ∨ len = 2) →
      (c.branch = none → c.hitch = [] → (advance c len {}).pc = c.pc + BitVec.ofNat 13 len ∧ (advance c len {}).hitch = [])
      ∧ (∀ b, c.branch = some b → c.hitch = [] →
          (advance c len {}).pc = (if b.taken then b.target else c.pc + BitVec.ofNat 13 len) ∧ (advance c len {}).branch = none
          ∧ (advance c len {}).coil = (if b.taken && b.isCall then (c.pc + BitVec.ofNat 13 len) :: c.coil.drop 1 else c.coil))
      ∧ (∀ h hs, c.branch = none → c.hitch = h :: hs → occupies c.pc len h.last = true → h.left > 1 →
          (advance c len {}).pc = h.first ∧ (advance c len {}).hitch = { h with left := h.left - 1 } :: hs)
      ∧ (∀ h hs, c.branch = none → c.hitch = h :: hs → occupies c.pc len h.last = true → h.left ≤ 1 →
          (advance c len {}).pc = (advance { c with hitch := hs } len {}).pc
          ∧ (advance c len {}).hitch = (advance { c with hitch := hs } len {}).hitch)
      ∧ (∀ h hs, c.branch = none → c.hitch = h :: hs → occupies c.pc len h.last = false →
          (advance c len {}).pc = (advance { c with hitch := hs } len {}).pc
          ∧ (advance c len {}).hitch = h :: (advance { c with hitch := hs } len {}).hitch)
      ∧ (∀ b h, c.branch = some b → b.taken = true → b.isB = true → c.hitch = [h] →
          (advance c len {}).hitch = (if occupies c.pc len h.last = true ∨ b.target.toNat < h.first.toNat ∨ h.last.toNat < b.target.toNat
            then [] else [h]))
      ∧ (∀ b, c.branch = none → c.hitch = [] → (advance c 1 { branch := some b }).pc = c.pc + 1 ∧ (advance c 1 { branch := some b }).branch = some b)
      ∧ (∀ h, c.branch = none → (advance c 1 { hitch := some h }).pc = c.pc + 1 ∧ (advance c 1 { hitch := some h }).hitch = h :: c.hitch)
      ∧ (∀ ms, c.shadow = some ms → (advance c len {}).mode = applyMode c.mode ms ∧ (advance c len {}).shadow = none)
      ∧ (∀ ms, c.shadow = none → (advance c len { mode := some ms }).mode = c.mode ∧ (advance c len { mode := some ms }).shadow = some ms)
      ∧ ((advance c len {}).a = c.a ∧ (advance c len {}).p = c.p ∧ (advance c len {}).m = c.m ∧ (advance c len {}).l = c.l
          ∧ (advance c len {}).f = c.f ∧ (advance c len {}).bx = c.bx))

/-- R408: MODE changes the fields whose mask bit is 1, after its shadow, and is annulled with LANE 0b11. R370, R373, R423: LOOP opens a Hitch level with its count, from an immediate or from an operand, and its body begins
at the next instruction; a fourth level, a count outside 1 to 4096, an end address before its body, or one past the
enclosing body's, is LOOP_MISUSE. R26, R424, R425, R463: END ends the Lay for the frame; YIELD ends your Slack program
for the frame and restarts the watchdog. Each is annulled with ILLEGAL_OP in the other context.
Resting on the model's choice in log entry 4. -/
def Obligations.ModeLoopEndAndYieldComplete : Prop :=
  ((∀ (aux : BitVec 2) (x y : BitVec 12) (s : State) (lay : Bool) (w : Work), Issues s lay (.short aux x y) (pure () : Run Unit) () w →
      (¬(y.getLsbD 8 = true ∧ y.toNat / 8 % 4 = 3) →
        exec (.mode (.short aux x y)) s = .next (finish (passSlots (slotStart w) 1) lay 1
          { mode := some ⟨y.extractLsb' 5 4, y.extractLsb' 0 5⟩ }))
      ∧ (y.getLsbD 8 = true → y.toNat / 8 % 4 = 3 → exec (.mode (.short aux x y)) s = .next (annul (slotStart w) lay 1 .illegalOp
          (BitVec.ofNat 32 (0x1E * 2 ^ 26 + aux.toNat * 2 ^ 24 + x.toNat * 2 ^ 12 + y.toNat)) none)))
    ∧ ∀ (mode : BitVec 5) (ms : ModeSet),
        (applyMode mode ms).toNat / 8 = (if ms.mask.getLsbD 3 then ms.vals.toNat / 8 else mode.toNat / 8)
        ∧ ∀ n, n < 3 → (applyMode mode ms).getLsbD n = (if ms.mask.getLsbD n then ms.vals.getLsbD n else mode.getLsbD n))
  ∧ (∀ (aux : BitVec 2) (x y : BitVec 12) (s : State) (lay : Bool),
      let f := Form.short aux x y
      let c := ctxOf s lay
      let m := modsOf c f
      let o := compact y
      let last : PAddr := BitVec.ofNat 13 (aux.toNat % 2 * 4096 + x.toNat)
      let bad := fun (w : Work) n => exec (.loop f) s = .next (annul (slotStart w) lay 1 .loopMisuse n none)
      (∀ w, Issues s lay f (pure () : Run Unit) () w → c.branch = none → (aux.toNat < 2 ∨ opndOk o = true) →
        (c.hitch.length ≥ 3 → bad w 0)
        ∧ (c.hitch.length < 3 → last.toNat < (c.pc + 1).toNat → bad w 2)
        ∧ (c.hitch.length < 3 → last.toNat ≥ (c.pc + 1).toNat → (∃ h hs, c.hitch = h :: hs ∧ last.toNat > h.last.toNat) → bad w 3)
        ∧ (c.hitch.length < 3 → last.toNat ≥ (c.pc + 1).toNat → (∀ h hs, c.hitch = h :: hs → last.toNat ≤ h.last.toNat) → aux.toNat < 2 →
            exec (.loop f) s = .next (finish (passSlots (slotStart w) 1) lay 1 { hitch := some ⟨c.pc + 1, last, y.toNat + 1⟩ })))
      ∧ (∀ l w, Issues s lay f (locOf lay c .read o 0) l w → c.branch = none → opndOk o = true → aux.toNat ≥ 2 →
          c.hitch.length < 3 → last.toNat ≥ (c.pc + 1).toNat → (∀ h hs, c.hitch = h :: hs → last.toNat ≤ h.last.toNat) →
          let n := loopCount l (peekLoc (slotStart w) lay m l)
          let r := readLoc (slotStart w) lay m l
          ((n < 1 ∨ n > 4096) → bad w 1)
          ∧ (1 ≤ n → n ≤ 4096 → exec (.loop f) s = .next (finish
              (onCtx (slotEnd r.2 lay (postsOf c o)) lay (fun c => { c with f := applyFlags c.f { s := locSats (slotStart w) lay m l } }))
              lay 1 { hitch := some ⟨c.pc + 1, last, n.toNat⟩ }))))
  ∧ (∀ (aux : BitVec 2) (x y : BitVec 12) (s : State) (w : Work),
      let f := Form.short aux x y
      let word := fun (opc : Nat) => (BitVec.ofNat 32 (opc * 2 ^ 26 + aux.toNat * 2 ^ 24 + x.toNat * 2 ^ 12 + y.toNat) : Word)
      (Issues s true f (pure () : Run Unit) () w →
        (s.lay.lay.branch = none → w.st.lay.stepping = false → ∃ e, exec (.endLay f) s = .next (finish e true 1 {})
          ∧ e.lay.inLay = false ∧ e.lay.endedAt = some (slotStart w).clock.slot ∧ e.lay.headsDue = true
          ∧ e.mem = (passSlots (slotStart w) 1).mem ∧ e.regs = (passSlots (slotStart w) 1).regs
          ∧ e.lay.slack = (passSlots (slotStart w) 1).lay.slack ∧ e.lay.lay = (passSlots (slotStart w) 1).lay.lay)
        ∧ exec (.yield f) s = .next (annul (slotStart w) true 1 .illegalOp (word 0x1F) none))
      ∧ (Issues s false f (pure () : Run Unit) () w →
        (∃ e, exec (.yield f) s = .next (finish e false 1 {}) ∧ e.lay.yielded = true ∧ e.cleat.wdogStart = e.clock.time
          ∧ e.mem = (passSlots (slotStart w) 1).mem ∧ e.regs = (passSlots (slotStart w) 1).regs
          ∧ e.lay.slack = (passSlots (slotStart w) 1).lay.slack ∧ e.lay.lay = (passSlots (slotStart w) 1).lay.lay)
        ∧ exec (.endLay f) s = .next (annul (slotStart w) false 1 .illegalOp (word 0x1D) none)))

/-- R426, R427: SPLC writes the stage pointer, the stage data or the commit frame, which counts from the current frame;
EVT posts its user event with the source as its data word. Both act at the end of the slot.
Resting on the model's choice in log entry 4. -/
def Obligations.SpliceAndEventInstructionsComplete : Prop :=
  ∀ (f : Form) (s : State) (lay : Bool) (l : Loc) (w : Work), isLong f = true → longFp f = 1 →
    let c := ctxOf s lay
    let m := modsOf c f
    let o := fullOf f
    let n := fnNumber f
    (formOk f && opndOk o && decide (fidMults [o] ≤ 4)) = true → Issues s lay f (locOf lay c .read o 0) l w →
    let x := readLoc (slotStart w) lay m l
    let e := onCtx (slotEnd x.2 lay (postsOf c o)) lay (fun c => { c with f := applyFlags c.f { s := locSats (slotStart w) lay m l } })
    let src := if lay then Source.lay else Source.slack
    (exec (.evt f) s = .next (finish (postEvent e n (fun _ => x.1)) lay 2 {}))
    ∧ (n = 0 → exec (.splc f) s = .next (finish (regWrite e src Reg.splStagePtr (x.1.setWidth 32)) lay 2 {}))
    ∧ (n = 1 → exec (.splc f) s = .next (finish (regWrite e src Reg.splStageData (x.1.setWidth 32)) lay 2 {}))
    ∧ (n = 2 → exec (.splc f) s = .next (finish (regWrite e src Reg.splCommitFrame (frameNo e + x.1.setWidth 32)) lay 2 {}))

/-- R431, R432, R436, R444: an annulled instruction writes no cell, accumulator, pointer, flag or Coil entry, whatever its
slot completes of earlier work; its fault is queued before the faults that no instruction found in its core clock (R456),
or dropped when the queue is full or the log frozen; a Lay instruction taints the frame; control flow goes on. -/
def Obligations.AnnulledInstructionHasNoEffect : Prop :=
  ∀ (s : State) (lay : Bool) (len : Nat) (code : FaultCode) (detail : Word),
    let e := passSlots s 1
    let t := annul s lay len code detail none
    (ctxOf t lay).a = (ctxOf e lay).a ∧ (ctxOf t lay).p = (ctxOf e lay).p ∧ (ctxOf t lay).f = (ctxOf e lay).f
    ∧ (ctxOf t lay).bx = (ctxOf e lay).bx ∧ ctxOf t (!lay) = ctxOf e (!lay) ∧ t.mem = e.mem ∧ t.splice = e.splice
    ∧ t.events = e.events ∧ (t.lay.tainted = (lay || e.lay.tainted)) ∧ t.lay.flight = e.lay.flight
    ∧ (let n := (logStep s).cleat.queue.length
       getB e Reg.cltLogHead 22 = false → n < 4 →
        t.cleat.queue = (e.cleat.queue.take n ++ annulItem s lay len code detail :: e.cleat.queue.drop n).take 4)

/-! ### The strand map -/

/-- The state after an access with the stalls of w; with Slack's, the reads of the port that it waited for are over. -/
def Sys2Proof.Machine.Claim.accessEnd (w : Work) (lay : Bool) : State :=
  if lay then slotStart w else { slotStart w with xp := { (slotStart w).xp with slackReads := [] } }

/-- R298, R299, R305, R308: MAP_WALK of an address that the map translates leaves the translation made and its stalls
spent; a two-level walk through Strand RAM costs the Lay 8 slots and 8 of its allowance, and fills the cache.
Resting on the model's choice in log entry 37. -/
def Obligations.MapWalkTranslates : Prop :=
  (∀ (s : State) (lay : Bool) (va : BitVec 24) (p : Page) (w : Work), issuer s = some lay → s.map.pin = none → va.toNat < 0xFE0000 →
    Gives (translate lay va.toNat) s p w →
    exec (.mapWalk va) s = .next (accessEnd w lay)
    ∧ (getB s Reg.mapL1Base 31 = false → p = .frame true (va.toNat / 4096) ∧ w = { st := s, stall := 0 })
    ∧ (getB s Reg.mapL1Base 31 = true → ∃ i e, vget w.st.map.cache i none = some e ∧ e.vpn = va.toNat / 4096 ∧ e.page = p))
  ∧ (∀ (s : State) (va : BitVec 24) (l1 l2 n : Nat) (w : Bool), issuer s = some true → va.toNat < 0xFE0000 →
      getB s Reg.mapL1Base 31 = true → getB s Reg.mapL1Base 30 = false → getB s Reg.mapL1Base 28 = false →
      cacheFind s.map (va.toNat / 4096) = none → s.mem.ecc = [] → 8 ≤ s.map.allowance → s.clock.slot + 8 ≤ fence s →
      getF s Reg.mapL1Base 23 0 = l1 → l1 < 0x020000 → l2 < 0x020000 → n < 32 →
      (let c := l1 - l1 % 128 + 2 * (va.toNat / 262144)
       strandCell s c = BitVec.ofNat 24 (4 * 2 ^ 21) ∧ strandCell s (c + 1) = BitVec.ofNat 24 l2) →
      strandCell s (l2 - l2 % 128 + 2 * (va.toNat / 4096 % 64)) = BitVec.ofNat 24 (2 ^ 21 + (if w then 2 ^ 20 else 0) + n) →
      Does (.mapWalk va) s (fun t => t.clock.slot = s.clock.slot + 8 ∧ t.map.allowance = s.map.allowance - 8
        ∧ t.map.charged = s.map.charged + 8
        ∧ ∃ i e, cacheFind t.map (va.toNat / 4096) = some i ∧ vget t.map.cache i none = some e ∧ e.page = .frame w n))

/-- R301, R302, R432: a walk that faults is logged with its code, MAP_FAULT_ADDR holds code and address, and a Lay frame
is tainted. R305: a read of an external page makes its access and stalls its context; the Lay is charged 40 slots for the first
read of a page. Any other page is read without one.
Resting on the model's choices in log entries 37, 38 and 12. -/
def Obligations.MapWalkFaultsAndExternalReads : Prop :=
  (∀ (s : State) (lay : Bool) (va : BitVec 24), issuer s = some lay → s.map.pin = none → va.toNat < 0xFE0000 →
      getB s Reg.mapL1Base 31 = false → va.toNat ≥ 0x020000 → getB s Reg.cltLogHead 22 = false → s.cleat.queue.length < 4 →
      Does (.mapWalk va) s (fun t => getReg t Reg.mapFaultAddr = BitVec.ofNat 32 (0x02 * 2 ^ 24 + va.toNat)
        ∧ (∃ it, t.cleat.queue = s.cleat.queue ++ [it] ∧ it.code = .mapInvalid ∧ it.detail = BitVec.ofNat 32 va.toNat)
        ∧ (t.lay.tainted = (lay || s.lay.tainted)) ∧ t.mem = s.mem ∧ t.clock = s.clock))
  ∧ ((∀ (s : State) (lay : Bool) (va : BitVec 24) (p : Page) (w : Work), issuer s = some lay → va.toNat < 0xFE0000 →
      Gives (translate lay va.toNat) s p w → (∀ wr dev pack page, p ≠ .ext wr dev pack page) →
      exec (.externalPageRead va false) s = .next (accessEnd w lay))
    ∧ (∀ (s : State) (lay : Bool) (va : BitVec 24) (wr : Bool) (dev pack page : Nat) (l : Loc) (w : Work), issuer s = some lay →
      va.toNat < 0xFE0000 →
      Gives (do let p ← translate lay va.toNat; let l ← pageLoc lay .read p va.toNat; return (p, l)) s (.ext wr dev pack page, l) w →
      exec (.externalPageRead va false) s = .next (accessEnd w lay) ∧ l = .ext dev (page * 4096 + va.toNat % 4096 * pack) pack
      ∧ (lay = true → ∃ w1, Gives (translate lay va.toNat) s (.ext wr dev pack page) w1 ∧ w.stall = w1.stall + 40
          ∧ w.st.map.allowance + 40 = w1.st.map.allowance)))

/-! ### Start, restart and LIMP -/

namespace Sys2Proof.Machine.Claim

/-- LIMP is entered from s for a reason (R154, R187, R188): the programs stop, the outputs send zero samples, STR_OVERRIDE
clears, FAULT# is driven low, and the RAMs, the map, the splice unit and the straps stay. -/
def Limped (s : State) (reason : Nat) (t : State) : Prop :=
  t.power.mode = .limp ∧ t.power.prev = s.power.mode ∧ getF t Reg.sysReason 7 0 = reason ∧ t.lay.inLay = false
  ∧ t.lay.slackOn = false ∧ t.cleat.wdogOn = false ∧ t.cleat.pinLow = true ∧ getReg t Reg.strOverride = 0
  ∧ (∀ k, vget t.audio.out k 0 = 0) ∧ t.power.pendingReq = none ∧ t.rom.code = none
  ∧ t.mem = s.mem ∧ t.straps = s.straps ∧ t.map = s.map ∧ t.splice = s.splice ∧ t.tally = s.tally ∧ t.whip = s.whip

/-- A warm restart from s with a cause (R165, R178): RAISE, from step 6 with the PLL running; the log, the SYS_FRAME
count, the straps and external memory are kept; the contexts and the RAMs are clear. -/
def Restarted (s : State) (cause : Nat) (workshop : Bool) (t : State) : Prop :=
  t.power.mode = .raise ∧ t.power.prev = s.power.mode ∧ getF t Reg.sysReason 19 16 = cause ∧ t.power.toWorkshop = workshop
  ∧ (pllRuns s = true → t.power.raise = .attempt) ∧ (pllRuns s = false → t.power.raise = .reference ∨ t.power.raise = .pll)
  ∧ frameNo t = frameNo s ∧ (∀ e k, e < 16 → k < 4 → getReg t (Reg.log e k) = getReg s (Reg.log e k))
  ∧ t.straps = s.straps ∧ t.mem.ext = s.mem.ext ∧ t.mem.deck = [] ∧ t.mem.strand = [] ∧ t.lay = Lay.init
  ∧ t.power.override = getReg s Reg.strOverride ∧ t.tally = s.tally

/-- The straps, with the override that a warm restart takes up, give no LIMP reason (R122, R126, R137). -/
def StrapsGood (s : State) : Prop := strapFault { s with power := { s.power with override := getReg s Reg.strOverride } } = .ok

/-- No register write waits for the end of a diagnostics step (R825). -/
def NoSinkWrites (s : State) : Prop := s.light.waiting = []

end Sys2Proof.Machine.Claim

/-- R85, R111, R154: in RAISE, RUN, HOLDOVER, WORKSHOP and QUIESCE a low supply and thermal shutdown enter LIMP with
their reasons, a missing reference does in step 3 of RAISE and a PLL that does not lock in step 4; a low supply also sets
PWR_VMON.LOW_SEEN. In other modes and steps nothing happens. -/
def Obligations.LimpEntries : Prop :=
  ∀ s : State, NoSinkWrites s →
    (s.power.mode ∈ [.raise, .run, .holdover, .workshop, .quiesce] →
      Does .supplyLow s (fun t => Limped s 0x0D t ∧ getF t Reg.sysReason 15 8 = 0x0D ∧ getB t Reg.pwrVmon 30 = true)
      ∧ Does .thermalShutdown s (fun t => Limped s 0x10 t ∧ getF t Reg.sysReason 15 8 = 0x10 ∧ t.power.hotFs = true))
    ∧ (s.power.mode ∈ [.off, .dormant, .standby, .limp] →
        exec .supplyLow s = .next s ∧ exec .thermalShutdown s = .next s)
    ∧ (s.power.mode = .raise → s.power.raise = .reference →
        Does .noReference s (fun t => Limped s 0x08 t ∧ getF t Reg.sysReason 15 8 = 0x08) ∧ exec .pllNoLock s = .next s)
    ∧ (s.power.mode = .raise → s.power.raise = .pll →
        Does .pllNoLock s (fun t => Limped s 0x07 t ∧ getF t Reg.sysReason 15 8 = 0x07) ∧ exec .noReference s = .next s)

/-- R177, R115, R84, R75, R74: a cold start reads the straps and clears every register but those that straps, role and cause
set; it ends in RAISE, or in LIMP where the straps give a reason. With TEST high the device stays out of operation. Power
loss enters OFF, in which the device is held in reset: every register, memory and unit is at its reset value, and every pin
that VDDX does not supply shows the Reset column of Table 2.2.
Resting on the model's choices in log entries 5, 6, 28 and 80. -/
def Obligations.ColdStartAndPowerLoss : Prop :=
  (∀ (s : State) (b : Boot) (cause : Nat) (c : Instr), (b.test = false ∧ c = .powerOnResetRelease b ∧ cause = 1)
      ∨ (s.power.mode ≠ .off ∧ c = .resetPinPulse b ∧ cause = 2) →
    Does c s (fun t => t.straps = decodeStraps b.straps ∧ t.pins.fs = b.fs ∧ getF t Reg.sysReason 19 16 = cause
      ∧ (t.power.mode = .limp ∨ t.power.mode = .raise) ∧ (t.power.mode = .limp ↔ strapFault t ≠ .ok)
      ∧ (t.power.mode = .raise → t.power.raise = .reference ∧ getF t Reg.sysReason 15 8 = cause)
      ∧ frameNo t = 0 ∧ getReg t Reg.sysStartCount = 0 ∧ getReg t Reg.strOverride = 0
      ∧ (∀ e k, e < 16 → k < 4 → getReg t (Reg.log e k) = 0) ∧ t.mem.deck = [] ∧ t.mem.strand = [] ∧ t.mem.ext = s.mem.ext
      ∧ (∀ lay, ctxOf t lay = Ctx.init) ∧ t.pending = s.pending))
  ∧ (∀ (s : State) (b : Boot), b.test = true →
      Does (.powerOnResetRelease b) s (fun t => t.power.mode = .off ∧ t.power.factory = true ∧ (∀ lay, ctxOf t lay = Ctx.init)))
  ∧ (∀ (s : State) (b : Boot), s.power.mode = .off → exec (.resetPinPulse b) s = .next s)
  ∧ (∀ s : State, Does .powerLoss s (fun t => t.power.mode = .off ∧ t.power.prev = s.power.mode ∧ pllRuns t = false
      ∧ t.lay = Lay.init ∧ t.power.xrstLow = true ∧ t.cleat.pinLow = false ∧ t.power.factory = false ∧ t.power.dueRequest = false
      ∧ (∀ r, getReg t r = getReg State.reset r) ∧ t.mem.deck = [] ∧ t.mem.strand = [] ∧ t.straps = State.reset.straps
      ∧ t.reel = State.reset.reel ∧ t.xp.holder = none ∧ t.twb = State.reset.twb ∧ t.hal = State.reset.hal
      ∧ (∀ p, pinDomain p ≠ some .vddx → pinState t p = pinReset p) ∧ pinState t .xrst = .low
      ∧ t.pending = s.pending))

/-- R170, R449, R464, R157, R181, R184: a wait for a rope image that ends, HOLDOVER at its limit and the expired watchdog
are failed starts: FAILED goes up, LAST_FAIL takes the reason, and a warm restart with the cause follows, or LIMP with the
start window open and FAILED at the limit. Outside their modes nothing happens.
Resting on the model's choice in log entry 2. -/
def Obligations.FailedStarts : Prop :=
  (∀ (s : State) (c : Instr) (cause reason : Nat),
    (c = .ropeNoImage ∧ s.power.mode = .raise ∧ s.power.raise = .ropeWait ∧ cause = 6 ∧ reason = 0x0E)
    ∨ (c = .holdoverTimeout ∧ s.power.mode = .holdover ∧ cause = 7 ∧ reason = 0x0B)
    ∨ (c = .slackWatchdog ∧ s.cleat.wdogOn = true ∧ cause = 8 ∧ reason = 0x0F) → NoSinkWrites s → StrapsGood s →
    let failed := getF s Reg.sysStartCount 3 0
    let now := if failed ≥ 15 then 15 else failed + 1
    let atLimit := (s.power.windowOpen = true ∨ failed = 0) ∧ now ≥ getF s Reg.cltLadderCfg 15 12
    (¬atLimit → Does c s (fun t => Restarted s cause false t ∧ getF t Reg.sysReason 15 8 = reason
        ∧ getF t Reg.sysStartCount 3 0 = now ∧ t.power.windowOpen = (s.power.windowOpen || failed == 0)))
    ∧ (atLimit → Does c s (fun t => Limped s reason t ∧ getF t Reg.sysReason 15 8 = reason
        ∧ getF t Reg.sysStartCount 3 0 = now ∧ t.power.windowOpen = true)))
  ∧ (∀ s : State, (s.power.mode ≠ .raise ∨ s.power.raise ≠ .ropeWait) → exec .ropeNoImage s = .next s)
  ∧ (∀ s : State, s.power.mode ≠ .holdover → exec .holdoverTimeout s = .next s)
  ∧ (∀ s : State, s.cleat.wdogOn = false → exec .slackWatchdog s = .next s)

/-- R182, R56, R165, R168, R129: a start window that closes with FAILED below the limit clears it; the PLL's lock sets
SYS_FRAME to 0 and leads to the start attempt; an attempt whose RAM test fails ends in LIMP, one under a strap LIMP reason
too (R195, R196), MS code 14 and a restart for WORKSHOP end in WORKSHOP, and where the ROM is the only boot source the ROM Lay of CFG0 is made ready.
Resting on the model's choices in log entries 26 and 27. -/
def Obligations.WindowPllLockAndStartAttempt : Prop :=
  (∀ s : State, s.power.windowOpen = true → Does .startWindowClose s (fun t => t.power.windowOpen = false
      ∧ getF t Reg.sysStartCount 3 0 = (if getF s Reg.sysStartCount 3 0 < s.power.startLimit then 0 else getF s Reg.sysStartCount 3 0)
      ∧ (∀ r, r ≠ Reg.sysStartCount → getReg t r = getReg s r) ∧ t.lay = s.lay ∧ t.mem = s.mem ∧ t.power.mode = s.power.mode))
  ∧ (∀ s : State, s.power.windowOpen = false → exec .startWindowClose s = .next s)
  ∧ (∀ s : State, s.power.mode = .raise → s.power.raise = .pll → Does .pllLock s (fun t => frameNo t = 0 ∧ t.clk.locked = true
      ∧ t.power.raise = .attempt ∧ t.clock.slot = 0 ∧ t.clock.frameLen = budget s ∧ (∀ r, r ≠ Reg.sysFrame → getReg t r = getReg s r)
      ∧ t.lay = s.lay ∧ t.mem = s.mem))
  ∧ (∀ s : State, (s.power.mode ≠ .raise ∨ s.power.raise ≠ .pll) → exec .pllLock s = .next s)
  ∧ (∀ (s : State) (sfdp : Option Sfdp), s.power.mode = .raise → s.power.raise = .attempt → NoSinkWrites s →
      Does (.startAttempt false sfdp) s (fun t => Limped s 0x0C t ∧ getF t Reg.sysReason 15 8 = 0x0C)
      ∧ ((s.power.toWorkshop = true ∨ role s = .workshop) → Does (.startAttempt true sfdp) s (fun t => t.power.mode = .workshop
          ∧ t.power.prev = .raise ∧ t.power.toWorkshop = false ∧ t.lay = Lay.init ∧ t.mem.deck = [] ∧ t.mem.strand = []
          ∧ t.mem.ext = s.mem.ext))
      ∧ (∀ r, s.power.toWorkshop = false → role s ≠ .workshop → strapReason s = some r →
          Does (.startAttempt true sfdp) s (fun t => t.power.mode = .limp ∧ t.power.prev = .raise
            ∧ getF t Reg.sysReason 7 0 = reasonNo r ∧ t.straps = s.straps))
      ∧ (s.power.toWorkshop = false → role s ≠ .workshop → strapReason s = none → bootSources (msCode s) = [.rom] →
          Does (.startAttempt true sfdp) s (fun t => t.power.mode = .raise ∧ t.power.raise = .firstFrame ∧ t.rom.code = some (romLay s)
            ∧ getF t Reg.sysStatus 19 16 = 3 ∧ t.mem.deck = [] ∧ t.mem.ext = s.mem.ext
            ∧ getF t Reg.sysStartCount 15 8 = (if getF s Reg.sysStartCount 15 8 ≥ 255 then 255 else getF s Reg.sysStartCount 15 8 + 1)
            ∧ (∀ r, r ≠ Reg.sysStatus → r ≠ Reg.sysStartCount → getReg t r = getReg s r)))
      ∧ (bootSources (msCode s) = [.rope] → strapReason s = none → s.power.toWorkshop = false → Does (.startAttempt true sfdp) s (fun t =>
          t.power.mode = .raise ∧ t.power.raise = .ropeWait ∧ t.rom = s.rom ∧ t.mem.deck = [])))

/-! ### Mode requests -/

namespace Sys2Proof.Machine.Claim

/-- A mode request from src reaches SYS_MODE_REQ in the current mode (Table 4.8), nothing that the last frame tick brings
is still to be carried out, and no other request waits (R160). -/
structure Requests (s : State) (src : Source) : Prop where
  heard : reaches s src Reg.sysModeReq = true
  none' : s.power.pendingReq = none
  due   : s.clock.holdDue = false
  writes : NoSinkWrites s

/-- The request waits for the next frame tick (R159): RESULT reads 1, and nothing else changes but FAULT# and its latch. -/
def Awaits (s : State) (m : Mode) (t : State) : Prop :=
  t.power.pendingReq = some m ∧ getF t Reg.sysModeReq 11 8 = 1 ∧ t.power.mode = s.power.mode ∧ t.lay = s.lay ∧ t.mem = s.mem
  ∧ t.light = s.light ∧ t.audio = s.audio ∧ (∀ r, r ≠ Reg.sysModeReq → r ≠ Reg.sysFaultPin → getReg t r = getReg s r)

/-- The request is refused with a RESULT, and the mode does not change. -/
def Refused (s : State) (result : Nat) (t : State) : Prop :=
  getF t Reg.sysModeReq 11 8 = result ∧ t.power.mode = s.power.mode ∧ t.power.pendingReq = s.power.pendingReq ∧ t.lay = s.lay
  ∧ t.mem = s.mem ∧ ∀ r, r ≠ Reg.sysModeReq → r ≠ Reg.sysFaultPin → getReg t r = getReg s r

end Sys2Proof.Machine.Claim

/-- R202, R205, R162, R214, Table 4.5: requests in RUN, HOLDOVER and WORKSHOP. TARGET 1 or 2 enters QUIESCE at once, with
the Lay running on; WORKSHOP, a resumed RUN and RUN from WORKSHOP wait for the next frame tick.
Resting on the model's choice in log entry 22. -/
def Obligations.RunningModeRequests : Prop :=
  ∀ (s : State) (src : Source), Requests s src →
    (∀ standby, s.power.mode ∈ [.run, .holdover, .workshop] → Does (.modeReqQuiesce src standby) s (fun t =>
        t.power.mode = .quiesce ∧ t.power.prev = s.power.mode ∧ t.power.sleepTarget = (if standby then .standby else .dormant)
        ∧ getF t Reg.sysModeReq 11 8 = 1 ∧ t.audio.muting = true ∧ t.light.fade = 0 ∧ t.cleat.wdogOn = false
        ∧ t.lay.inLay = s.lay.inLay ∧ t.mem = s.mem ∧ t.map = s.map))
    ∧ (s.power.mode ∈ [.run, .holdover] → Does (.modeReqWorkshop src) s (Awaits s .workshop))
    ∧ (s.power.mode = .holdover → Does (.modeReqResume src) s (Awaits s .run))
    ∧ (s.power.mode = .workshop → getB s Reg.sysStatus 8 = true → loadedFits s = true →
        Does (.modeReqWorkshopRun src) s (Awaits s .run))
    ∧ (s.power.mode = .workshop → (getB s Reg.sysStatus 8 = false ∨ loadedFits s = false) →
        Does (.modeReqWorkshopRun src) s (Refused s 3))

/-- R163, R178, R159: a request with TARGET 3 in WORKSHOP and the SYS_RESET key restart the device warm, with causes 10
and 5; the key also sets LAST_FAIL.
Resting on the model's choice in log entry 22. -/
def Obligations.WarmRestartRequests : Prop :=
  ∀ (s : State) (src : Source), NoSinkWrites s → StrapsGood s → s.power.factory = false →
    (s.power.mode = .workshop → Requests s src → Does (.modeReqWorkshopRestart src) s (fun t => Restarted s 10 false t
        ∧ getF t Reg.sysModeReq 11 8 = 2))
    ∧ (s.power.mode ∈ [.run, .holdover, .workshop] → Does (.sysReset src) s (fun t => Restarted s 5 false t ∧ getF t Reg.sysReason 15 8 = 3))

/-- R159, R203, R204, R243: in STANDBY a request leads to DORMANT or to RAISE with cause 4; QUIESCE that is complete ends in
the mode asked for, with XRST# low.
Resting on the model's choice in log entry 22. -/
def Obligations.StandbyRequestsAndQuiesceEnd : Prop :=
  (∀ (s : State) (src : Source), Requests s src → s.power.mode = .standby →
    (s.power.heldWake = none → Does (.modeReqStandbyDormant src) s (fun t => t.power.mode = .dormant ∧ t.power.prev = .standby
        ∧ getF t Reg.sysModeReq 11 8 = 2 ∧ t.lay.inLay = false ∧ t.power.xrstLow = true ∧ getReg t Reg.sysStartCount = 0
        ∧ getReg t Reg.strOverride = 0 ∧ t.mem = s.mem ∧ t.straps = s.straps))
    ∧ ∀ four, Does (.modeReqStandbyRaise src four) s (fun t => t.power.mode = .raise ∧ t.power.prev = .standby
        ∧ getF t Reg.sysReason 19 16 = 4 ∧ getF t Reg.sysModeReq 11 8 = 2 ∧ t.power.raise = .reference ∧ t.lay = Lay.init
        ∧ t.mem.deck = [] ∧ t.straps = s.straps))
  ∧ (∀ s : State, s.clock.quietDue = true → s.power.heldWake = none → NoSinkWrites s → s.power.sleepTarget ∈ [.dormant, .standby] →
      Does .quiesceComplete s (fun t => t.power.mode = s.power.sleepTarget ∧ t.power.prev = s.power.mode ∧ t.power.xrstLow = true
        ∧ getF t Reg.sysModeReq 11 8 = 2 ∧ t.lay.inLay = false ∧ t.lay.slackOn = false ∧ pllRuns t = false ∧ t.mem = s.mem))
  ∧ (∀ s : State, s.clock.quietDue = false → exec .quiesceComplete s = .next s)

/-- R190 to R194: a leave-LIMP request is refused with RESULT 4 while its cause persists; accepted, TARGET 3 restarts with
cause 9, TARGET 7 restarts towards WORKSHOP, and TARGET 1 enters DORMANT.
Resting on the model's choice in log entry 22. -/
def Obligations.LeaveLimpRequests : Prop :=
  ∀ (s : State) (src : Source), Requests s src → s.power.mode = .limp →
    (limpPersists s 3 = true → Does (.leaveLimpRestart src) s (Refused s 4))
    ∧ (limpPersists s 7 = true → Does (.leaveLimpWorkshop src) s (Refused s 4))
    ∧ (limpPersists s 1 = true → Does (.leaveLimpDormant src) s (Refused s 4))
    ∧ (limpPersists s 3 = false → StrapsGood s → Does (.leaveLimpRestart src) s (fun t => Restarted s 9 false t
        ∧ getF t Reg.sysModeReq 11 8 = 2 ∧ getReg t Reg.sysStartCount = 0))
    ∧ (limpPersists s 7 = false → Does (.leaveLimpWorkshop src) s (fun t => Restarted s 9 true t
        ∧ getF t Reg.sysModeReq 11 8 = 2 ∧ getReg t Reg.sysStartCount = 0))
    ∧ (limpPersists s 1 = false → s.power.heldWake = none → Does (.leaveLimpDormant src) s (fun t => t.power.mode = .dormant
        ∧ t.power.prev = .limp ∧ getF t Reg.sysModeReq 11 8 = 2 ∧ getReg t Reg.sysStartCount = 0 ∧ t.mem = s.mem))

/-! ### Frames -/

namespace Sys2Proof.Machine.Claim

/-- Nothing that the last frame tick brought is still to be carried out, and no event has starved. -/
structure Settled (s : State) : Prop where
  hold  : s.clock.holdDue = false
  light : s.clock.lightDue = false
  quiet : s.clock.quietDue = false
  age   : ∀ e, e < 22 → vget s.events.age e 0 < 64

/-- A frame tick with nothing else that changes the frame: no register write, mode request, pin operation or memory error
waits for it. A change of rate may. -/
structure PlainTick (s : State) : Prop where
  ticks   : frameTicks s = true
  settled : Settled s
  writes  : s.tickPend = []
  request : s.power.pendingReq = none
  pins    : s.map.pin = none
  ecc     : s.mem.ecc = []

/-- The frame rate of the frame that the tick begins (R167). -/
def nextRate (s : State) : BitVec 2 := s.clock.rateDue.getD s.clock.rate

/-- The ending frame is tainted: marked, or the Lay runs into the fence (R43, R45, R445). -/
def endsTainted (s : State) : Bool := s.lay.tainted || (s.lay.inLay && !s.lay.stepping)

/-- A count n that stays at its largest value. -/
def upTo (top n : Nat) : Nat := min top (n + 1)

end Sys2Proof.Machine.Claim

/-- R22, R33, R49, R53, R55, R165, R167, R659: a frame tick. SYS_FRAME goes up by 1, or to 0 at the tick that a START pulse
brings; slot 0 begins, a waiting rate takes effect, the walk allowance is full, GPIO inputs are sampled; where SYS_FRAME is a
multiple of K the light tick is due and the PWM period starts anew; in
RUN and QUIESCE the Lay starts at LAY_ENTRY; the tick after a start attempt ends RAISE in RUN, starts your Slack program and
the watchdog. Without ticks nothing happens.
Resting on the model's choice in log entry 17. -/
def Obligations.FrameTickBeginsTheFrame : Prop :=
  (∀ (s : State) (ti : TickIn), PlainTick s → Does (.frameTick ti) s (fun t =>
    frameNo t = (if s.clock.startDue then 0 else frameNo s + 1) ∧ t.clock.slot = 0 ∧ t.clock.startDue = false
    ∧ t.clock.rate = nextRate s ∧ t.clock.rateDue = none ∧ t.clock.lightDue = ((frameNo t).toNat % lightDivOf (nextRate s) == 0)
    ∧ t.light.pwmStart = (if t.clock.lightDue then t.clock.time else s.light.pwmStart)
    ∧ t.pins.gpio = ti.gpio ∧ t.map.allowance = getF s Reg.layWalkAllow 10 0 ∧ t.map.walks = 0 ∧ t.map.charged = 0
    ∧ t.lay.tainted = false ∧ t.lay.overran = false ∧ t.lay.yielded = false
    ∧ t.power.mode = (if s.power.mode = .raise ∧ s.power.raise = .firstFrame then .run else s.power.mode)
    ∧ (s.power.mode = .raise → s.power.raise = .firstFrame → t.power.prev = .raise ∧ t.cleat.wdogOn = true ∧ t.lay.firstRun = false
        ∧ (s.lay.firstRun = true → t.lay.slackOn = getB s Reg.laySlackEntry 31
            ∧ t.lay.slack.pc = BitVec.ofNat 13 (getF s Reg.laySlackEntry 12 0)))
    ∧ (s.power.mode = .run ∨ (s.power.mode = .raise ∧ s.power.raise = .firstFrame) → t.clock.holdDue = false → s.rom.code = none →
        t.lay.inLay = true ∧ t.lay.lay.pc = BitVec.ofNat 13 (getF s Reg.layEntry 12 0) ∧ t.lay.lay.coil = [] ∧ t.lay.lay.hitch = [])))
  ∧ (∀ (s : State) (ti : TickIn), Settled s → frameTicks s = false → exec (.frameTick ti) s = .next s)

/-- R445, R446, R449, R453, R454: a frame tick and the ladder. A tainted frame raises CONSEC and TOTAL, any other clears
CONSEC; in RUN, CONSEC at K makes entry to HOLDOVER due, and entry stops the Lay, keeps the outputs and the sinks, starts
the fade and is flagged. R64, R66, R67, R68, R275, R276: a frame tick sets the frame's length to the budget, one core clock more or less while a nudge
is left, whose COUNT moves towards 0 unless it was written in the tick's own core clock; and advances the heads of the lines that step, around their lengths, in RUN and
QUIESCE unless MAP_LINE_CTRL freezes them. No other cell of the Line Table changes.
Resting on the model's choices in log entries 17, 18, 20 and 24. -/
def Obligations.TaintLadderAndFrameLength : Prop :=
  ((∀ (s : State) (ti : TickIn), PlainTick s → s.clock.startDue = false → Does (.frameTick ti) s (fun t =>
      getF t Reg.cltTaint 15 8 = (if endsTainted s then upTo 255 (getF s Reg.cltTaint 15 8) else 0)
      ∧ getF t Reg.cltTaint 31 16 = (if endsTainted s then upTo 65535 (getF s Reg.cltTaint 31 16) else getF s Reg.cltTaint 31 16)
      ∧ getB t Reg.cltTaint 0 = (endsTainted s || getB s Reg.cltTaint 0)
      ∧ t.clock.holdDue = (decide (s.power.mode = .run) && endsTainted s
          && decide (upTo 255 (getF s Reg.cltTaint 15 8) ≥ getF s Reg.cltLadderCfg 31 24))))
    ∧ (∀ s : State, s.clock.holdDue = true → Does .enterHoldover s (fun t => t.power.mode = .holdover ∧ t.power.prev = s.power.mode
        ∧ t.lay.inLay = false ∧ t.clock.holdDue = false ∧ t.audio.fade = .down (fadeFactor s).1 (fadeFactor s).2 1
        ∧ t.cleat.holdStart = s.clock.time ∧ getB t Reg.cltTaint 1 = true ∧ t.audio.out = s.audio.out ∧ t.light.latch = s.light.latch
        ∧ t.mem = s.mem ∧ t.lay.slackOn = s.lay.slackOn ∧ frameNo t = frameNo s))
    ∧ (∀ s : State, s.clock.holdDue = false → exec .enterHoldover s = .next s))
  ∧ (∀ (s : State) (ti : TickIn), PlainTick s → Does (.frameTick ti) s (fun t =>
      (s.clk.aligning = false →
        let c := signed 16 (s.clock.nudgeEdge.getD (getF s Reg.clkNudge 15 0))
        let d : Int := if s.clk.follow then 0 else c.sign
        (t.clock.frameLen : Int) = (budgetOf (nextRate s) : Int) + d ∧ t.clock.nudgeEdge = none
        ∧ (s.clock.nudgeEdge = none → signed 16 (getF t Reg.clkNudge 15 0) = c - d)
        ∧ (s.clock.nudgeEdge ≠ none → getReg t Reg.clkNudge = getReg s Reg.clkNudge))
      ∧ (∀ n, n < 256 →
          let w := lineCell s n 1
          let h := cfld (lineCell s n 2) 19 0
          let moves := getB s Reg.mapLineCtrl 0 = false ∧ s.power.mode ∈ [.run, .quiesce] ∧ w.msb = true
          (moves → cfld w 21 20 = 1 → lineCell t n 2 = BitVec.ofNat 24 ((h + 1) % lineLen s n))
          ∧ (moves → cfld w 21 20 = 2 → lineCell t n 2 = BitVec.ofNat 24 ((h + lineLen s n - 1) % lineLen s n))
          ∧ (¬moves ∧ s.power.mode ≠ .workshop ∨ cfld w 21 20 = 0 ∨ cfld w 21 20 = 3 → lineCell t n 2 = lineCell s n 2)
          ∧ lineCell t n 0 = lineCell s n 0 ∧ lineCell t n 1 = w ∧ lineCell t n 3 = lineCell s n 3)))

/-- R162, R198, R205, R206, R213, R214: a frame tick carries out the mode request that waits.
Resting on the model's choices in log entries 22 and 23. -/
def Obligations.ModeChangesAtTheTick : Prop :=
  ∀ (s : State) (ti : TickIn) (m : Mode), PlainTick { s with power := { s.power with pendingReq := none } } →
    s.power.pendingReq = some m → endsTainted s = false →
    (m = .run → s.power.mode = .holdover → Does (.frameTick ti) s (fun t => t.power.mode = .run ∧ t.power.prev = .holdover
        ∧ getF t Reg.sysModeReq 11 8 = 2 ∧ getF t Reg.cltTaint 15 8 = 0 ∧ t.light.handover = some 0 ∧ t.power.pendingReq = none
        ∧ (s.rom.code = none → t.lay.inLay = true ∧ t.lay.lay.pc = BitVec.ofNat 13 (getF s Reg.layEntry 12 0))))
    ∧ (m = .workshop → s.power.mode = .run ∨ s.power.mode = .holdover → Does (.frameTick ti) s (fun t => t.power.mode = .workshop
        ∧ t.power.prev = s.power.mode ∧ getF t Reg.sysModeReq 11 8 = 2 ∧ t.lay.inLay = false ∧ t.audio.fade = .full
        ∧ t.lay.lay.pc = BitVec.ofNat 13 (getF s Reg.layEntry 12 0) ∧ t.lay.lay.coil = [] ∧ t.lay.lay.hitch = []
        ∧ getF t Reg.layCtrl 11 0 = 0 ∧ t.power.pendingReq = none ∧ t.mem.deck = s.mem.deck))
    ∧ (m = .run → s.power.mode = .workshop → getB s Reg.sysStatus 8 = true → Does (.frameTick ti) s (fun t => t.power.mode = .run
        ∧ t.power.prev = .workshop ∧ getF t Reg.sysModeReq 11 8 = 2 ∧ t.rom.code = none ∧ t.power.pendingReq = none))
    ∧ (m = .run → s.power.mode = .workshop → getB s Reg.sysStatus 8 = false → Does (.frameTick ti) s (fun t =>
        t.power.mode = .workshop ∧ getF t Reg.sysModeReq 11 8 = 3 ∧ t.power.pendingReq = none))

/-- R43 to R45, R48, R49, R208, R334, R447, R659, R812: what happens within a frame. At the fence a Lay that still runs stops: its
frame overran and is tainted, which is counted and logged, or a step run pauses. The light tick latches every sink's code
and duty from SNK_n_CUR and its cell, but in HOLDOVER keeps them. An event with EN 1 that stays pending for 64 ticks is
logged once. A START pulse ends the frame, and the next tick is that of frame 0.
Resting on the model's choices in log entries 17 and 21. -/
def Obligations.FrameEventsComplete : Prop :=
  (∀ s : State, s.lay.inLay = true → s.lay.stepping = false → s.cleat.queue = [] → getB s Reg.cltLogHead 22 = false →
      (∀ u, u < 4 → (whipUnit s u).queue = []) → backfillMeets s = false → Does .frameOverrun s (fun t => t.lay.inLay = false ∧ t.lay.overran = true
        ∧ t.lay.tainted = true ∧ t.clock.slot = max s.clock.slot (fence s) ∧ getB t Reg.layStatus 1 = true
        ∧ getF t Reg.layStatus 31 24 = upTo 255 (getF s Reg.layStatus 31 24)
        ∧ t.cleat.queue = [⟨.frameOverrun, .none, false, false, false, t.clock.slot, 0, frameNo s,
            BitVec.ofNat 32 (s.map.charged % 2048)⟩]))
  ∧ (∀ s : State, s.lay.inLay = true → s.lay.stepping = true → Does .frameOverrun s (fun t => t.lay.inLay = false
        ∧ t.lay.stepping = false ∧ t.lay.tainted = s.lay.tainted ∧ t.lay.overran = s.lay.overran
        ∧ t.clock.slot = max s.clock.slot (fence s)))
  ∧ (∀ s : State, s.lay.inLay = false → exec .frameOverrun s = .next s)
  ∧ (∀ s : State, s.clock.holdDue = false → s.clock.lightDue = true → s.rom.code = none → s.light.step = none →
      Does .lightTick s (fun t => t.clock.lightDue = false ∧ t.power.mode = s.power.mode ∧ t.light.f = s.light.fNext
        ∧ t.light.mult = getF s Reg.snkGlobal 16 8 ∧ (∀ k, k < 3 → vget t.light.fs k 0 = getReg s (Reg.snkFs k))
        ∧ (s.power.mode = .holdover → t.light.latch = s.light.latch)
        ∧ (s.power.mode ≠ .holdover → s.light.handover = none → ∀ n (h : n < 24), t.light.latch[n] =
            ⟨getF s (Reg.snkCur n) 7 0, dutyOf (sget zero s.mem.port n), getB s (Reg.snkCfg n) 31, getB s (Reg.snkCfg n) 30, colourOf s n⟩)
        ∧ t.mem.port = s.mem.port ∧ t.mem.strand = s.mem.strand))
  ∧ (∀ s : State, s.clock.holdDue = false → s.clock.lightDue = false → exec .lightTick s = .next s)
  ∧ (∀ s : State, Does .slackStarved s (fun t => t.lay = s.lay ∧ t.mem = s.mem ∧ t.power = s.power ∧ t.events.data = s.events.data
      ∧ ∀ e, e < 22 → vget t.events.logged e false = (vget s.events.logged e false
          || (getB s Reg.layEvtPend e && getB s Reg.layEvtEn e && decide (vget s.events.age e 0 ≥ 64)))))
  ∧ (∀ s : State, Settled s → (getF s Reg.ropCfg 29 28 = 1 ∧ (s.power.mode = .raise ∨ s.power.mode = .workshop) ∧ frameTicks s = true
      ∧ s.clock.startDue = false → Does .startPulse s (fun t => t.clock.startDue = true ∧ t.clock.slot = s.clock.slot + 1
        ∧ t.lay.inLay = false ∧ t.power.mode = s.power.mode ∧ frameNo t = frameNo s ∧ t.mem.deck = s.mem.deck)))
  ∧ (∀ s : State, (getF s Reg.ropCfg 29 28 ≠ 1 ∨ (s.power.mode ≠ .raise ∧ s.power.mode ≠ .workshop)) → exec .startPulse s = .next s)

/-! ### References -/

namespace Sys2Proof.Machine.Claim

/-- Source c is qualified in s, or becomes so. -/
def qualOr (s : State) (c x : Nat) : Bool := qualified s x || x == c

/-- Everything outside the clock unit that a reference event leaves alone. -/
def ClockOnly (s t : State) : Prop :=
  t.power.mode = s.power.mode ∧ t.lay = s.lay ∧ t.mem = s.mem ∧ t.map = s.map ∧ t.splice = s.splice ∧ frameNo t = frameNo s
  ∧ t.clock = s.clock ∧ t.reel = s.reel ∧ t.rope = s.rope ∧ t.hal = s.hal

/-- The windows passed in a row (R239): by the qualified sources earlier in the order than the primary, measured within
250 ppm of it. -/
def Passed (s : State) (others : List (Nat × Int)) (t : State) : Prop :=
  ∀ c, c < 5 →
    let passes := c ∈ (srcOrder s).takeWhile (· != s.clk.primary) ∧ qualified s c = true ∧ ∃ d, (c, d) ∈ others ∧ d.natAbs ≤ 2500
    (passes → vget t.clk.passes c 0 = upTo 255 (vget s.clk.passes c 0)) ∧ (¬passes → vget t.clk.passes c 0 = 0)

/-- The frame tick goes over to source c (R234): the PLL slews, the change is flagged and counted. -/
def SlewsTo (s : State) (c : Nat) (t : State) : Prop :=
  t.clk.primary = c ∧ t.clk.slewing = true ∧ t.clk.locked = false ∧ t.clk.hold = false ∧ t.clk.aligning = false
  ∧ getB t Reg.clkStatus 24 = true ∧ getF t Reg.clkStatus 31 28 = upTo 15 (getF s Reg.clkStatus 31 28)

end Sys2Proof.Machine.Claim

/-- R217, R222, R226, R229, R230, R232, R234, R235, R239: the choice of references. A source that qualifies joins the
candidates; in step 3 of RAISE the first qualified entry is the primary and the next one the secondary; a held PLL slews to
it. A lost source leaves the candidates, flagged and logged; a lost primary gives way to the next qualified entry, or the
PLL holds. With REVERT at 1 an earlier source that has passed REVERT_WIN windows takes over again. That the search for a successor starts after the lost entry
and goes on from the first is the model's reading (log entry 7), and that a re-qualified source leaves the secondary in place
its choice (log entry 85). -/
def Obligations.ReferenceChoice : Prop :=
  (∀ (s : State) (code : BitVec 3), watchesReferences s.power.mode = true → s.power.factory = false → 1 ≤ code.toNat → code.toNat ≤ 4 →
    let c := code.toNat
    Does (.referenceQualified code) s (fun t => ClockOnly s t ∧ (∀ x, qualified t x = qualOr s c x)
      ∧ (s.power.mode = .raise → s.power.raise = .reference → ∀ p, (srcOrder s).find? (qualOr s c) = some p →
          t.clk.primary = p ∧ t.power.raise = .pll ∧ t.clk.windows = 0 ∧ t.clk.decision = 0
          ∧ t.clk.secondary = ((((srcOrder s).dropWhile (· != p)).drop 1).find? (qualOr s c)).getD 0)
      ∧ (s.power.mode = .raise → s.power.raise = .reference → (srcOrder s).find? (qualOr s c) = none →
          t.clk.primary = s.clk.primary ∧ t.power.raise = .reference)
      ∧ (s.power.mode ≠ .raise → s.clk.primary = 0 → s.clk.hold = true → c ∈ srcOrder s → SlewsTo s c t)
      ∧ (s.power.mode ≠ .raise → s.clk.primary ≠ 0 → t.clk.primary = s.clk.primary
          ∧ (s.clk.secondary ≠ 0 → t.clk.secondary = s.clk.secondary))))
  ∧ (∀ (s : State) (code : BitVec 3), (watchesReferences s.power.mode = false ∨ code = 0) →
      exec (.referenceQualified code) s = .next s)
  ∧ (∀ (s : State) (code : BitVec 3) (rc : Bool), watchesReferences s.power.mode = true → qualified s code.toNat = true →
      let c := code.toNat
      Does (.sourceLost code rc) s (fun t => ClockOnly s t ∧ (∀ x, qualified t x = (qualified s x && x != c))
        ∧ (c ∉ srcOrder s → t.clk.primary = s.clk.primary ∧ t.clk.secondary = s.clk.secondary ∧ t.regs = s.regs)
        ∧ (c ∈ srcOrder s → getB t Reg.clkStatus 26 = true)
        ∧ (c ∈ srcOrder s → getB s Reg.cltLogHead 22 = false → s.cleat.queue.length < 4 → t.cleat.queue = s.cleat.queue
            ++ [⟨.clkLost, .none, false, false, false, s.clock.slot, 0, frameNo s,
                BitVec.ofNat 32 ((toBits 16 s.clk.avg).toNat * 65536 + b2n rc * 16 + c)⟩])
        ∧ (c ∈ srcOrder s → c = s.clk.primary → pllRuns s = true → (∀ x xs, candidatesAfter s c = x :: xs → SlewsTo s x t)
            ∧ (candidatesAfter s c = [] → t.clk.primary = 0 ∧ t.clk.hold = true ∧ t.clk.locked = false ∧ t.clk.secondary = 0))
        ∧ (c ∈ srcOrder s → c ≠ s.clk.primary → t.clk.primary = s.clk.primary ∧ (c = s.clk.secondary → s.clk.primary ∈ srcOrder s →
            t.clk.secondary = ((((srcOrder s).dropWhile (· != s.clk.primary)).drop 1).find? (fun x => qualified s x && x != c)).getD 0))))
  ∧ (∀ (s : State) (code : BitVec 3) (rc : Bool), (watchesReferences s.power.mode = false ∨ qualified s code.toNat = false) →
      exec (.sourceLost code rc) s = .next s)
  ∧ (∀ (s : State) (code : BitVec 3), watchesReferences s.power.mode = true → pllRuns s = true → qualified s code.toNat = true →
      s.clk.primary ≠ 0 → s.clk.primary ∈ srcOrder s → code.toNat ∈ (srcOrder s).takeWhile (· != s.clk.primary) →
      (getB s Reg.clkMonCfg 1 = true → vget s.clk.passes code.toNat 0 ≥ getF s Reg.clkMonCfg 23 16 →
        Does (.referenceRevert code) s (fun t => ClockOnly s t ∧ SlewsTo s code.toNat t ∧ ∀ x, x < 5 → vget t.clk.passes x 0 = 0))
      ∧ (getB s Reg.clkMonCfg 1 = false ∨ vget s.clk.passes code.toNat 0 < getF s Reg.clkMonCfg 23 16 →
        exec (.referenceRevert code) s = .next s))

/-- R225 to R228, R239, Table 5.6: a monitor window. Each source earlier in the order than the primary counts the windows that it
passes in a row. LAST and AVG take their values; from the eighth window of a pair on, the
decision moves between its bands with their hysteresis, and DISAGREE declares the source lost that R227 names. R234, R237, R238: at the lock after a slew the PLL is locked; with FSYNC as the primary the frame tick then moves to its
edge in the shorter direction, one core clock a frame, and the nudge ends.
Resting on the model's choices in log entries 15, 52 and 53. -/
def Obligations.MonitorDecisionsSlewAndAlignment : Prop :=
  ((∀ (s : State) (dev : Int) (others : List (Nat × Int)), watchesReferences s.power.mode = true → s.clk.primary ≠ 0 → s.clk.secondary ≠ 0 →
        s.clk.primary ≠ s.clk.secondary → getB s Reg.clkMonCfg 0 = false →
      let sum := ((dev :: s.clk.devs).take 8).foldl (· + ·) 0
      Does (.monitorWindowEnd dev others) s (fun t => ClockOnly s t ∧ t.clk.last = satDev dev
        ∧ (t.clk.primary = s.clk.primary → Passed s others t)
        ∧ (sum % 8 = 0 → t.clk.avg = satDev (sum / 8)) ∧ (-32767 ≤ t.clk.avg ∧ t.clk.avg ≤ 32767)
        ∧ (s.clk.windows + 1 < 8 → t.clk.decision = s.clk.decision ∧ t.clk.primary = s.clk.primary ∧ t.clk.windows = s.clk.windows + 1)
        ∧ (s.clk.windows + 1 ≥ 8 →
            let m := t.clk.avg.natAbs
            let parts := if s.clk.decision ≥ 2 then m ≥ 19500 else m > 20000
            let loser := if s.clk.primary = 1 then s.clk.secondary else if s.clk.secondary = 1 then s.clk.primary
              else if getB s Reg.clkMonCfg 2 then 0 else s.clk.primary
            (¬parts → t.clk.primary = s.clk.primary ∧ t.clk.secondary = s.clk.secondary
              ∧ (s.clk.decision = 0 → t.clk.decision = if m > 2500 then 1 else 0)
              ∧ (s.clk.decision = 1 → t.clk.decision = if m < 2000 then 0 else 1)
              ∧ (s.clk.decision ≥ 2 → t.clk.decision = 1)
              ∧ (t.clk.decision = 1 → s.clk.decision ≠ 1 → getB t Reg.clkStatus 25 = true))
            ∧ (parts → loser = 0 → t.clk.decision = 2 ∧ t.clk.primary = s.clk.primary ∧ t.clk.secondary = s.clk.secondary)
            ∧ (parts → loser ≠ 0 → qualified t loser = false ∧ getB t Reg.clkStatus 26 = true
                ∧ (loser = s.clk.secondary → t.clk.primary = s.clk.primary) ∧ (loser = s.clk.primary → pllRuns s = true →
                  t.clk.primary ≠ loser ∧ pllRuns t = true)))))
    ∧ (∀ (s : State) (dev : Int) (others : List (Nat × Int)), watchesReferences s.power.mode = true → s.clk.primary ≠ 0 →
        s.clk.secondary = 0 → Does (.monitorWindowEnd dev others) s (fun t => Passed s others t
          ∧ t = { s with clk := { s.clk with passes := t.clk.passes } }))
    ∧ (∀ (s : State) (dev : Int) (others : List (Nat × Int)), (watchesReferences s.power.mode = false ∨ s.clk.primary = 0) →
        exec (.monitorWindowEnd dev others) s = .next s))
  ∧ ((∀ (s : State) (offset : Int), s.clk.slewing = true → Does (.pllSlewLock offset) s (fun t => ClockOnly s t
        ∧ t.clk.slewing = false ∧ t.clk.locked = true ∧ t.clk.primary = s.clk.primary
        ∧ (s.clk.primary ≠ 4 → t.clk.aligning = s.clk.aligning ∧ t.regs = s.regs)
        ∧ (s.clk.primary = 4 → t.clk.aligning = true ∧ (t.clk.alignLeft - offset) % (budget s : Int) = 0
            ∧ 2 * t.clk.alignLeft.natAbs ≤ budget s ∧ getF t Reg.clkNudge 15 0 = 0)))
    ∧ (∀ (s : State) (offset : Int), s.clk.slewing = false → exec (.pllSlewLock offset) s = .next s)
    ∧ (∀ (s : State) (ti : TickIn), PlainTick s → s.clk.aligning = true → Does (.frameTick ti) s (fun t =>
        (s.clk.alignLeft.natAbs > 1 → t.clk.aligning = true ∧ (t.clock.frameLen : Int) = (budgetOf (nextRate s) : Int) + s.clk.alignLeft.sign
          ∧ t.clk.alignLeft = s.clk.alignLeft - s.clk.alignLeft.sign)
        ∧ (s.clk.alignLeft.natAbs ≤ 1 → t.clk.aligning = false ∧ t.clk.follow = true ∧ t.clock.frameLen = budgetOf (nextRate s)))))

/-! ### Register writes -/

namespace Sys2Proof.Machine.Claim

/-- A write from src to register r is taken: the source reaches the register in this mode and is not denied (R879, R884). -/
structure Open (s : State) (src : Source) (r : Nat) : Prop where
  reached : reaches s src r = true
  allowed : denied s src r = false

/-- t is u, but for FAULT# and its latch (R470, R473). -/
def ButPin (u t : State) : Prop :=
  t = { u with regs := t.regs, cleat := { u.cleat with pinLow := t.cleat.pinLow, pinHold := t.cleat.pinHold } }
  ∧ (∀ r, r ≠ Reg.sysFaultPin → getReg t r = getReg u r) ∧ ∀ n, n < 32 → n ≠ 13 → getB t Reg.sysFaultPin n = getB u Reg.sysFaultPin n

/-- t is u, but for register r, FAULT# and its latch. -/
def ButReg (r : Nat) (u t : State) : Prop :=
  t = { u with regs := t.regs, cleat := { u.cleat with pinLow := t.cleat.pinLow, pinHold := t.cleat.pinHold } }
  ∧ ∀ q, q ≠ r → q ≠ Reg.sysFaultPin → getReg t q = getReg u q

/-- Registers with no rule beyond those of their fields. -/
def plainRegs : List Nat := [
  Reg.sysEvents, Reg.sysEventEn, Reg.clkStatus, Reg.clkPllCfg, Reg.clkMonCfg, Reg.pwrWakeSrc, Reg.pwrDormantCfg, Reg.pwrVmon,
  Reg.strOverride, Reg.cltLadderCfg, Reg.cltTaint, Reg.cltLease, Reg.layEntry, Reg.laySlackEntry, Reg.layStatus,
  Reg.mapEccStatus, Reg.relCtrl, Reg.xpLeaseTimeout, Reg.xpResetCfg, Reg.xpStatus, Reg.xpDaddr, Reg.ropClk, Reg.ropNode,
  Reg.ropStatus, Reg.ropBufptr, Reg.ropImg, Reg.ropSelmap 0, Reg.ropProf 0, Reg.twbTimeout, Reg.twbStatus, Reg.halBaud,
  Reg.halLinCfg, Reg.audASlots, Reg.audCCfg, Reg.asrCfg, Reg.asrLock, Reg.asrRange, Reg.snkGlobal, Reg.snkIref,
  Reg.snkDerate, Reg.snkNtc 0, Reg.snkNtc 1, Reg.snkColor, Reg.snkFs 0, Reg.snkFs 1, Reg.snkFs 2, Reg.gpioDir, Reg.gpioOut]

/-- A field after a full write of v over a register that held w (R9, R10, R12, R13). -/
def fieldAfter (locked : Bool) (f : Field) (v w w' : Word) : Prop :=
  match f.access with
  | .rw | .rws => fld w' f.hi f.lo = if fieldLegal f.legal (fld v f.hi f.lo) then fld v f.hi f.lo else fld w f.hi f.lo
  | .rwl => fld w' f.hi f.lo = if !locked && fieldLegal f.legal (fld v f.hi f.lo) then fld v f.hi f.lo else fld w f.hi f.lo
  | .w1c clears => bit w' f.lo = (bit w f.lo && !bit v f.lo)
      ∧ ∀ hi lo, clears = some (hi, lo) → fld w' hi lo = if bit v f.lo then 0 else fld w hi lo

/-- The write of x to register r waits for the next frame tick, in place of an older one. -/
def waitsForTick (s : State) (r : Nat) (x : Word) : State := { s with tickPend := s.tickPend.filter (fun e => e.1 != r) ++ [(r, x)] }

end Sys2Proof.Machine.Claim

/-- R8 to R13, R270, R875, R879, R884: a register write. Where no register stands or the source does not reach it, nothing
happens; a denied write counts and names its source; a plain register takes each writable field's legal value, keeps it at
a reserved one, in RUN, HOLDOVER and QUIESCE keeps locked fields, and clears a W1C flag written 1 with its count; read-only
pages ignore writes. Nothing else changes but FAULT#. Of two writes in one core clock the earlier source's governs; of two mode
requests the other is refused with RESULT 0x5 (R161).
Resting on the model's choice in log entry 45. -/
def Obligations.RegisterWrites : Prop :=
  ∀ (s : State) (src : Source) (page : BitVec 8) (index : BitVec 6) (v : Word),
    let r := 64 * page.toNat + index.toNat
    let c := Instr.registerWrite src page index v
    (regExists r = false ∨ reaches s src r = false → exec c s = .next s)
    ∧ (∀ k, regExists r = true → reaches s src r = true → denied s src r = true → denyBit src = some k →
        Does c s (fun t => t = { s with regs := t.regs } ∧ (∀ q, q ≠ Reg.sysOwner → getReg t q = getReg s q)
          ∧ getF t Reg.sysOwner 15 8 = upTo 255 (getF s Reg.sysOwner 15 8) ∧ getF t Reg.sysOwner 23 20 = k + 1
          ∧ getF t Reg.sysOwner 7 0 = getF s Reg.sysOwner 7 0))
    ∧ (Open s src r → page.toNat ∈ [0x04, 0x15, 0x16, 0x17] → Does c s (ButPin s))
    ∧ (∀ row, Open s src r → r ∈ plainRegs → regRow r = some row →
        (∀ n, s.light.step = some n → r ≠ Reg.snkCfg n ∧ r ≠ Reg.snkCur n) → Does c s (fun t => ButReg r s t
          ∧ (∀ f ∈ row.fields, fieldAfter (lockedMode s.power.mode) f v (getReg s r) (getReg t r))
          ∧ (∀ n, n < 32 → (∀ f ∈ row.fields, ¬(f.lo ≤ n ∧ n ≤ f.hi) ∧ ∀ hi lo, f.access = .w1c (some (hi, lo)) → ¬(lo ≤ n ∧ n ≤ hi)) →
              getB t r n = getB s r n)))
    ∧ (∀ w : RegWrite, reaches s src r = true → reaches s w.src r = true →
        r ∉ [Reg.sysModeReq, Reg.splStagePtr, Reg.splStageData, Reg.splCommitFrame] →
        let both := Instr.registerWrite src page index v [w]
        (srcRank src < srcRank w.src → exec both s = exec c s)
        ∧ (srcRank w.src < srcRank src → exec both s = exec (.registerWrite w.src page index w.val) s))
    ∧ (∀ w : RegWrite, r = Reg.sysModeReq → reaches s src r = true → reaches s w.src r = true → fld v 31 24 = 0x4D →
        fld w.val 31 24 = 0x4D → srcRank src < srcRank w.src → Does (.registerWrite src page index v [w]) s (fun t =>
          ∃ u, exec c s = .next u ∧ getF t Reg.sysModeReq 11 8 = 5 ∧ t = { u with regs := t.regs }
            ∧ ∀ q, q ≠ Reg.sysModeReq → getReg t q = getReg u q))

/-- R20, R39 to R41, R58, R66 to R68, R206, R213, R297: writes that steer frames. SYS_FRAME, MAP_L1_BASE and legal S and W
wait for the next frame tick; S and W that break the budget are refused with BUDGET_REJECT; RATE waits for a restart and
is locked outside WORKSHOP; COUNT of CLK_NUDGE takes its value unless the tick follows or aligns, and in the tick's own core
clock stands over the tick's step; STEP counts only in WORKSHOP, one that the stepped instruction writes stands over its own
decrement, and a write of 0 over a step run cancels it.
Resting on the model's choices in log entries 45 and 47. -/
def Obligations.FrameRegisterWrites : Prop :=
  (∀ (s : State) (src : Source) (v : Word), Open s src Reg.sysFrame →
      Does (.sysFrameWrite src v) s (ButPin (waitsForTick s Reg.sysFrame v)))
  ∧ (∀ (s : State) (ti : TickIn) (v : Word), PlainTick { s with tickPend := [] } → s.tickPend = [(Reg.sysFrame, v)] →
      s.clock.startDue = false → Does (.frameTick ti) s (fun t => frameNo t = v ∧ t.tickPend = []))
  ∧ (∀ (s : State) (src : Source) (v : Word), Open s src Reg.clkNudge →
      (s.clk.follow = false → s.clk.aligning = false → s.clock.slot < s.clock.frameLen → Does (.clkNudgeWrite src v) s (fun t =>
          ButReg Reg.clkNudge s t ∧ getF t Reg.clkNudge 15 0 = fld v 15 0))
      ∧ (s.clk.follow = false → s.clk.aligning = false → s.clock.slot ≥ s.clock.frameLen → Does (.clkNudgeWrite src v) s (fun t =>
          ButReg Reg.clkNudge { s with clock := { s.clock with
            nudgeEdge := some (s.clock.nudgeEdge.getD (getF s Reg.clkNudge 15 0)) } } t ∧ getF t Reg.clkNudge 15 0 = fld v 15 0))
      ∧ (s.clk.follow = true ∨ s.clk.aligning = true → Does (.clkNudgeWrite src v) s (ButPin s)))
  ∧ (∀ (s : State) (src : Source) (v : Word), s.tickPend = [] → s.xp.cfgPend = [] → s.light.waiting = [] →
      let x := fld v 12 0
      let y := fld v 10 0
      (Open s src Reg.laySlackMin → (x < 128 ∨ x > budget s / 2 → Does (.budgetRegisterWrite src false v) s (ButPin s))
        ∧ (128 ≤ x → x ≤ budget s / 2 → s.loader.lmax + getF s Reg.layWalkAllow 10 0 + x ≤ budget s →
            Does (.budgetRegisterWrite src false v) s (ButPin (waitsForTick s Reg.laySlackMin (BitVec.ofNat 32 x))))
        ∧ (128 ≤ x → x ≤ budget s / 2 → s.loader.lmax + getF s Reg.layWalkAllow 10 0 + x > budget s →
            Does (.budgetRegisterWrite src false v) s (fun t => ButReg Reg.layStatus s t ∧ getB t Reg.layStatus 2 = true)))
      ∧ (Open s src Reg.layWalkAllow → (y > 1024 → Does (.budgetRegisterWrite src true v) s (ButPin s))
        ∧ (y ≤ 1024 → s.loader.lmax + y + getF s Reg.laySlackMin 12 0 ≤ budget s →
            Does (.budgetRegisterWrite src true v) s (ButPin (waitsForTick s Reg.layWalkAllow (BitVec.ofNat 32 y))))
        ∧ (y ≤ 1024 → s.loader.lmax + y + getF s Reg.laySlackMin 12 0 > budget s →
            Does (.budgetRegisterWrite src true v) s (fun t => ButReg Reg.layStatus s t ∧ getB t Reg.layStatus 2 = true))))
  ∧ (∀ (s : State) (src : Source) (v : Word), Open s src Reg.layFrameCfg →
      (s.power.mode = .workshop → fld v 1 0 ≠ 3 → Does (.rateWrite src v) s
        (ButPin { s with clock := { s.clock with rateNext := some (BitVec.ofNat 2 (fld v 1 0)) } }))
      ∧ (lockedMode s.power.mode = true ∨ fld v 1 0 = 3 → Does (.rateWrite src v) s (ButPin s)))
  ∧ (∀ (s : State) (src : Source) (v : Word), Open s src Reg.layCtrl →
      (s.power.mode ≠ .workshop → Does (.stepWrite src v) s (fun t => ButReg Reg.layCtrl s t ∧ getF t Reg.layCtrl 11 0 = 0))
      ∧ (s.power.mode = .workshop → (fld v 11 0 ≠ 0 ∨ getF s Reg.layCtrl 11 0 = 0) → Does (.stepWrite src v) s (fun t =>
          ButReg Reg.layCtrl { s with lay := { s.lay with
            stepWrote := s.lay.stepWrote || (decide (src = .lay) && s.lay.stepping) } } t
          ∧ getF t Reg.layCtrl 11 0 = fld v 11 0 ∧ getB t Reg.layCtrl 13 = bit v 13))
      ∧ (s.power.mode = .workshop → fld v 11 0 = 0 → getF s Reg.layCtrl 11 0 ≠ 0 → Does (.stepWrite src v) s (fun t =>
          getF t Reg.layCtrl 11 0 = 0 ∧ getB t Reg.layCtrl 12 = true ∧ t.lay.stepping = false
          ∧ (s.lay.stepping = true → t.lay.inLay = false) ∧ t.lay.lay = s.lay.lay ∧ t.mem = s.mem)))
  ∧ (∀ (s : State) (src : Source) (v : Word), Open s src Reg.mapL1Base → Does (.mapL1BaseWrite src v) s (fun t =>
      ∃ x, ButPin (waitsForTick s Reg.mapL1Base x) t ∧ fld x 23 0 = fld v 23 0 ∧ fld x 31 28 = fld v 31 28))
  ∧ (∀ (s : State) (ti : TickIn) (x : Word), PlainTick { s with tickPend := [] } → s.tickPend = [(Reg.mapL1Base, x)] →
      s.power.mode ≠ .raise → Does (.frameTick ti) s (fun t => getReg t Reg.mapL1Base = x ∧ (∀ i, i < 32 → vget t.map.cache i none = none)))

/-- R878, R879, R881: SYS_OWNER takes DENY only with its key, which clears the count, from any source. R312 to R316, R458, R463, R883: writes to the map cache, the log, the watchdog and GPIO. Invalidating drops every
unpinned entry, or the one of a page; a pin operation pins a cached page, or, where the page cannot be pinned, fails with
PIN_FAIL; while one is under way the register ignores writes. CLEAR empties the log and keeps FREEZE; KICK from a program
restarts the watchdog.
Resting on the model's choices in log entries 25, 44, 45 and 48. -/
def Obligations.OwnerCacheLogAndWatchdogWrites : Prop :=
  (∀ (s : State) (src : Source) (v : Word), reaches s src Reg.sysOwner = true →
      (fld v 31 24 = 0xA6 → Does (.sysOwnerWrite src v) s (fun t => ButReg Reg.sysOwner s t
        ∧ getF t Reg.sysOwner 3 0 = fld v 3 0 ∧ getF t Reg.sysOwner 15 8 = 0 ∧ getF t Reg.sysOwner 23 20 = getF s Reg.sysOwner 23 20))
      ∧ (fld v 31 24 ≠ 0xA6 → Does (.sysOwnerWrite src v) s (ButPin s)))
  ∧ ((∀ (s : State) (src : Source), Open s src Reg.mapCacheCtrl →
      (∀ (c : Instr) (vpn : BitVec 12), c ∈ [.invalidateAll src, .invalidateVpn src vpn, .pinPage src vpn] → s.map.pin ≠ none →
          Does c s (ButPin s))
      ∧ (s.map.pin = none → Does (.invalidateAll src) s (fun t => t.map.pin = none ∧ t.mem = s.mem ∧ t.lay = s.lay ∧ ∀ i, i < 32 →
          vget t.map.cache i none = match vget s.map.cache i none with
            | some e => if e.pinned then some e else none
            | none => none))
      ∧ (∀ vpn : BitVec 12, s.map.pin = none → Does (.invalidateVpn src vpn) s (fun t => t.map.pin = none ∧ t.mem = s.mem
          ∧ t.lay = s.lay ∧ ∀ i, i < 32 → vget t.map.cache i none = match vget s.map.cache i none with
            | some e => if e.vpn = vpn.toNat then none else some e
            | none => none))
      ∧ (∀ vpn : BitVec 12, s.map.pin = none → s.tickPend = [] →
          (getB s Reg.mapL1Base 31 = false ∨ vpn.toNat ≥ 0xFE0 → Does (.pinPage src vpn) s (fun t =>
            getB t Reg.mapCacheCtrl 28 = true ∧ t.map.pin = none ∧ t.map.cache = s.map.cache ∧ t.lay = s.lay ∧ t.mem = s.mem))
          ∧ (getB s Reg.mapL1Base 31 = true → vpn.toNat < 0xFE0 → ∀ i e, cacheFind s.map vpn.toNat = some i →
              vget s.map.cache i none = some e → e.pinned = false → pinnedCount s.map < 24 → Does (.pinPage src vpn) s (fun t =>
                t.map.pin = none ∧ vget t.map.cache i none = some { e with pinned := true } ∧ t.lay = s.lay ∧ t.mem = s.mem))
          ∧ (getB s Reg.mapL1Base 31 = true → vpn.toNat < 0xFE0 → cacheFind s.map vpn.toNat = none → pinnedCount s.map < 24 →
              s.lay.inLay = true → Does (.pinPage src vpn) s (fun t => t.map.pin = some vpn.toNat ∧ t.map.cache = s.map.cache))))
    ∧ (∀ (s : State) (src : Source), Open s src Reg.cltLogHead → Does (.logClear src) s (fun t =>
        (∀ e, e < 16 → getB t (Reg.log e 0) 18 = false ∧ getF t (Reg.log e 0) 31 24 = getF s (Reg.log e 0) 31 24
          ∧ ∀ k, 1 ≤ k → k < 4 → getReg t (Reg.log e k) = getReg s (Reg.log e k))
        ∧ getF t Reg.cltLogHead 3 0 = 0 ∧ getB t Reg.cltLogHead 22 = getB s Reg.cltLogHead 22 ∧ t.cleat.queue = s.cleat.queue
        ∧ t.mem = s.mem ∧ t.lay = s.lay))
    ∧ (∀ (s : State) (src : Source), Open s src Reg.cltWdog →
        (src = .slack ∨ src = .rom → Does (.watchdogKick src) s (ButPin { s with cleat := { s.cleat with wdogStart := s.clock.time } }))
        ∧ (src ≠ .slack → src ≠ .rom → Does (.watchdogKick src) s (ButPin s)))
    ∧ (∀ (s : State) (src : Source) (v : Word),
        (Open s src Reg.gpioOut → Does (.gpioWrite src true v) s (fun t => ButReg Reg.gpioOut s t ∧ getF t Reg.gpioOut 7 0 = fld v 7 0))
        ∧ (Open s src Reg.gpioDir → Does (.gpioWrite src false v) s (fun t => ButReg Reg.gpioDir s t ∧ getF t Reg.gpioDir 7 0 = fld v 7 0))))

/-! ### Splices -/

/-- R479 to R485, R487, R489 to R491, R493, R494, R500: writes to the splice unit. A free unit, or one that the source
already stages, takes the staging pointer, staged words in the shadow copies with the pointer's advance, and a commit, which
arms it with the glide length; a late commit is refused, or taken for the next tick under ASAP; CANCEL by the owner discards
staging, and of an armed commit brings back the frame of the last to fire (R515). Every other write is refused with its flag and leaves the unit as it was.
Resting on the model's choice in log entry 45. -/
def Obligations.SpliceWrites : Prop :=
  ∀ (s : State) (src : Source) (v : Word),
    let space := getF s Reg.splStagePtr 31 30
    let i := getF s Reg.splStagePtr 12 0
    let mine := s.splice.state = .staging ∧ s.splice.owner = ownerOf src
    (Open s src Reg.splStagePtr →
      (s.splice.state = .idle ∨ mine → Does (.stagePtrWrite src v) s (fun t => t.splice.state = .staging
        ∧ t.splice.owner = ownerOf src ∧ t.splice.since = s.clock.time ∧ (s.splice.state = .idle → t.splice.marks = [])
        ∧ getF t Reg.splStagePtr 12 0 = fld v 12 0 ∧ getB t Reg.splStagePtr 29 = bit v 29
        ∧ getF t Reg.splStagePtr 31 30 = (if fld v 31 30 = 3 then space else fld v 31 30) ∧ t.mem = s.mem ∧ t.lay = s.lay))
      ∧ (s.splice.state ≠ .idle → ¬mine → Does (.stagePtrWrite src v) s (fun t => ButReg Reg.splStatus s t
          ∧ getB t Reg.splStatus 4 = true)))
    ∧ (Open s src Reg.splStageData →
      (s.splice.state = .idle ∨ mine → (space ≤ 1 ∨ space = 2 ∧ i ≤ 15) → Does (.stageDataWrite src v) s (fun t =>
        t.splice.state = .staging ∧ t.splice.owner = ownerOf src ∧ getF t Reg.splStagePtr 12 0 = (i + 1) % 8192
        ∧ activeTable t = activeTable s ∧ activeProg t = activeProg s ∧ activeGains t = activeGains s
        ∧ (space = 0 → sget zero (shadowTable t) i = v.setWidth 24 ∧ (∀ j, j ≠ i → sget zero (shadowTable t) j = sget zero (shadowTable s) j)
            ∧ (getB s Reg.splStagePtr 29 = false → i ∉ t.splice.marks))
        ∧ (space = 1 → sget zero (shadowProg t) i = v ∧ t.splice.progStaged = true
            ∧ ∀ j, j ≠ i → sget zero (shadowProg t) j = sget zero (shadowProg s) j)
        ∧ (space = 2 → vget (shadowGains t) i 0 = (v.setWidth 24 &&& 0x80FFFF)
            ∧ ∀ j, j ≠ i → vget (shadowGains t) j 0 = vget (shadowGains s) j 0)))
      ∧ (s.splice.state ≠ .idle ∧ ¬mine ∨ space = 2 ∧ i > 15 → Does (.stageDataWrite src v) s (fun t => ButReg Reg.splStatus s t
          ∧ getB t Reg.splStatus 4 = true)))
    ∧ (Open s src Reg.splCommitFrame →
      let late := atOrPast (frameNo s) v
      (s.splice.state = .idle ∨ mine → late = false ∨ getB s Reg.splCtrl 0 = true → Does (.commitWrite src v) s (fun t =>
        t.splice.state = .armed ∧ t.splice.owner = ownerOf src ∧ getReg t Reg.splCommitFrame = v ∧ t.splice.armNext = late
        ∧ t.splice.armG = getF s Reg.splGlide 12 0 ∧ getB t Reg.splStatus 7 = (late || getB s Reg.splStatus 7) ∧ t.mem = s.mem))
      ∧ (s.splice.state = .idle ∨ mine → late = true → getB s Reg.splCtrl 0 = false → Does (.commitWrite src v) s (fun t =>
          t.splice.state = s.splice.state ∧ t.splice.owner = s.splice.owner ∧ getB t Reg.splStatus 6 = true
          ∧ getReg t Reg.splCommitFrame = getReg s Reg.splCommitFrame ∧ t.mem = s.mem ∧ (getB s Reg.cltLogHead 22 = false →
            s.cleat.queue.length < 4 → ∃ it, t.cleat.queue = s.cleat.queue ++ [it] ∧ it.code = .spliceLate ∧ it.detail = v)))
      ∧ (s.splice.state ≠ .idle → ¬mine → Does (.commitWrite src v) s (fun t => ButReg Reg.splStatus s t ∧ getB t Reg.splStatus 5 = true)))
    ∧ (Open s src Reg.splCtrl →
      ((s.splice.state = .staging ∨ s.splice.state = .armed) → s.splice.owner = ownerOf src → Does (.spliceCancel src) s (fun t =>
        t.splice.state = .backfill ∧ t.splice.owner = .none ∧ t.splice.marks = [] ∧ t.splice.since = s.clock.time
        ∧ getReg t Reg.splCommitFrame = (if s.splice.state = .armed then s.splice.fired else getReg s Reg.splCommitFrame)
        ∧ t.splice.tableSel = s.splice.tableSel ∧ t.splice.gainSel = s.splice.gainSel ∧ t.splice.progSel = s.splice.progSel ∧ t.mem = s.mem))
      ∧ (s.splice.state = .idle ∨ s.splice.state = .backfill ∨ s.splice.owner ≠ ownerOf src → Does (.spliceCancel src) s (fun t =>
          ButReg Reg.splStatus s t ∧ getB t Reg.splStatus 5 = true)))

namespace Sys2Proof.Machine.Claim

/-- Channel ch, where it has waited its frames for a zero crossing, ramps from the next frame on; no other phase changes. -/
def TimesOut (v : Vector GainPhase 16) (ch : Fin 16) (v' : Vector GainPhase 16) : Prop :=
  (∀ k : Fin 16, k ≠ ch → v'[k] = v[k])
  ∧ (∀ old new n lim, v[ch] = .wait old new n lim → v'[ch] = if n ≥ lim then .due old new else .wait old new n lim)
  ∧ ((∀ old new n lim, v[ch] ≠ .wait old new n lim) → v'[ch] = v[ch])

end Sys2Proof.Machine.Claim

/-- R486, R491, R495 to R498, R509, R515: what the splice unit does by itself. A commit fires at the first tick at or past its
frame: the copies of Table and gains exchange, those of the program where one was staged, and the back-fill begins; when it
is complete every shadow copy equals its active copy and the unit is IDLE. Staging that falls silent is discarded; a
channel that has waited its frames for a zero crossing, for its gain word or its mute, ramps from the next frame on.
Resting on the model's choices in log entries 10 and 41. -/
def Obligations.SpliceEventsComplete : Prop :=
  (∀ (s : State) (ti : TickIn), PlainTick s → s.clock.startDue = false → s.splice.state = .armed → s.power.mode ≠ .limp →
      (s.splice.armNext = true ∨ atOrPast (frameNo s + 1) (getReg s Reg.splCommitFrame) = true →
        Does (.frameTick ti) s (fun t => t.splice.state = .backfill ∧ t.splice.owner = .none ∧ t.splice.tableSel = !s.splice.tableSel
          ∧ t.splice.fired = getReg s Reg.splCommitFrame
          ∧ t.splice.gainSel = !s.splice.gainSel ∧ t.splice.progSel = (if s.splice.progStaged then !s.splice.progSel else s.splice.progSel)
          ∧ getB t Reg.splStatus 3 = true ∧ getF t Reg.splStatus 31 24 = upTo 255 (getF s Reg.splStatus 31 24)
          ∧ activeTable t = shadowTable s ∧ shadowTable t = activeTable s))
      ∧ (s.splice.armNext = false → atOrPast (frameNo s + 1) (getReg s Reg.splCommitFrame) = false →
          Does (.frameTick ti) s (fun t => t.splice.state = .armed ∧ t.splice.owner = s.splice.owner
            ∧ t.splice.tableSel = s.splice.tableSel ∧ t.splice.gainSel = s.splice.gainSel ∧ t.splice.progSel = s.splice.progSel)))
  ∧ (∀ s : State, s.splice.state = .backfill → Does .backfillComplete s (fun t => t.splice.state = .idle ∧ t.splice.owner = .none
      ∧ activeTable t = activeTable s ∧ shadowTable t = activeTable s ∧ activeProg t = activeProg s ∧ shadowProg t = activeProg s
      ∧ activeGains t = activeGains s ∧ shadowGains t = activeGains s ∧ t.mem.deck = s.mem.deck ∧ t.lay = s.lay))
  ∧ (∀ s : State, s.splice.state ≠ .backfill → exec .backfillComplete s = .next s)
  ∧ (∀ s : State, s.splice.state = .staging → Does .ownershipLapse s (fun t => t.splice.state = .backfill ∧ t.splice.owner = .none
      ∧ t.splice.marks = [] ∧ t.splice.tableSel = s.splice.tableSel ∧ getB t Reg.splStatus 8 = true ∧ t.mem = s.mem ∧ t.lay = s.lay))
  ∧ (∀ s : State, s.splice.state ≠ .staging → exec .ownershipLapse s = .next s)
  ∧ (∀ (s : State) (ch : Fin 16), Does (.zcTimeout ch) s (fun t =>
        t = { s with splice := { s.splice with gains := t.splice.gains }, audio := { s.audio with mutes := t.audio.mutes } }
        ∧ TimesOut s.splice.gains ch t.splice.gains ∧ TimesOut s.audio.mutes ch t.audio.mutes))

/-! ### The log, events, FAULT#, supplies, sleep and wake -/

/-- VDDX stands in Table 2.5 (R82). -/
def Sys2Proof.Machine.Claim.vddxGood (mv : Nat) : Bool := decide (1700 ≤ mv ∧ mv ≤ 1950 ∨ 3000 ≤ mv ∧ mv ≤ 3600)

/-- R331, R333, R455 to R459, R470 to R475, R244, R85, R82: the log takes the oldest waiting fault at NEXT, or counts a repeat of the
newest entry, or drops it under FREEZE, which expires; a post makes an event pending, and Slack takes the lowest-numbered
enabled one; after its 1 ms minimum FAULT# follows its sources; a supply measurement sets MV, LOW with its hysteresis and
LOW_SEEN; once both supplies have stood in their ranges the X-port pins leave high impedance.
Resting on the model's choices in log entries 43 and 54. -/
def Obligations.LogEventsAndSuppliesComplete : Prop :=
  (∀ (s : State) (it : LogItem) (rest : List LogItem), s.cleat.queue = it :: rest →
    let n := getF s Reg.cltLogHead 3 0
    let old := Reg.log ((n + 15) % 16) 0
    (getB s Reg.cltLogHead 22 = true → Does .logEntryWrite s (fun t => t.cleat.queue = rest ∧ getB t Reg.cltLogHead 23 = true
        ∧ getF t Reg.cltLogHead 31 24 = upTo 255 (getF s Reg.cltLogHead 31 24) ∧ ∀ e k, e < 16 → k < 4 → getReg t (Reg.log e k) = getReg s (Reg.log e k)))
    ∧ (getB s Reg.cltLogHead 22 = false → logRepeats s it = false → Does .logEntryWrite s (fun t => t.cleat.queue = rest
        ∧ getF t Reg.cltLogHead 3 0 = (n + 1) % 16 ∧ getF t Reg.cltLogHead 15 8 = upTo 255 (getF s Reg.cltLogHead 15 8)
        ∧ getB t Reg.cltLogHead 20 = true ∧ getB t Reg.sysEvents 0 = true
        ∧ getF t (Reg.log n 0) 31 24 = faultNo it.code ∧ getF t (Reg.log n 0) 23 22 = logCtxNo it.ctx ∧ getB t (Reg.log n 0) 21 = it.ds
        ∧ getB t (Reg.log n 0) 20 = it.mp ∧ getB t (Reg.log n 0) 19 = it.le ∧ getB t (Reg.log n 0) 18 = true ∧ getF t (Reg.log n 0) 17 8 = 0
        ∧ getF t (Reg.log n 1) 31 16 = it.slot % 65536 ∧ getF t (Reg.log n 1) 12 0 = it.pc.toNat ∧ getReg t (Reg.log n 2) = it.frame
        ∧ getReg t (Reg.log n 3) = it.detail ∧ ∀ e k, e < 16 → k < 4 → e ≠ n → getReg t (Reg.log e k) = getReg s (Reg.log e k)))
    ∧ (getB s Reg.cltLogHead 22 = false → logRepeats s it = true → Does .logEntryWrite s (fun t => t.cleat.queue = rest
        ∧ getF t Reg.cltLogHead 3 0 = n ∧ getF t old 17 8 = upTo 1023 (getF s old 17 8) ∧ getF t old 31 18 = getF s old 31 18
        ∧ ∀ e k, e < 16 → k < 4 → Reg.log e k ≠ old → getReg t (Reg.log e k) = getReg s (Reg.log e k))))
  ∧ (∀ s : State, s.cleat.queue = [] → exec .logEntryWrite s = .next s)
  ∧ (∀ s : State, Does .logFreezeExpire s (fun t => t = { s with regs := t.regs } ∧ getB t Reg.cltLogHead 22 = false
      ∧ (∀ n, n < 32 → n ≠ 22 → getB t Reg.cltLogHead n = getB s Reg.cltLogHead n) ∧ ∀ r, r ≠ Reg.cltLogHead → getReg t r = getReg s r))
  ∧ (∀ (s : State) (e : Nat) (f : Cell → Cell), e < 22 →
      let t := postEvent s e f
      getB t Reg.layEvtPend e = true ∧ vget t.events.data e 0 = f (vget s.events.data e 0)
      ∧ (∀ k, k < 22 → k ≠ e → getB t Reg.layEvtPend k = getB s Reg.layEvtPend k ∧ vget t.events.data k 0 = vget s.events.data k 0
          ∧ vget t.events.age k 0 = vget s.events.age k 0)
      ∧ vget t.events.age e 0 = (if getB s Reg.layEvtPend e then vget s.events.age e 0 else 0)
      ∧ (∀ r, r ≠ Reg.layEvtPend → getReg t r = getReg s r) ∧ t.lay = s.lay ∧ t.mem = s.mem)
  ∧ (∀ (s : State) (e : Nat), issuer s = some false → e < 22 → getB s Reg.layEvtPend e = true → getB s Reg.layEvtEn e = true →
      (∀ k, k < e → getB s Reg.layEvtPend k = false ∨ getB s Reg.layEvtEn k = false) → Does .eventTake s (fun t =>
        getB t Reg.layEvtPend e = false ∧ vget t.events.data e 0 = 0 ∧ (∀ k, k < 22 → k ≠ e → getB t Reg.layEvtPend k = getB s Reg.layEvtPend k
          ∧ vget t.events.data k 0 = vget s.events.data k 0) ∧ (∀ r, r ≠ Reg.layEvtPend → getReg t r = getReg s r) ∧ t.lay = s.lay ∧ t.mem = s.mem))
  ∧ (∀ s : State, (issuer s ≠ some false ∨ ∀ e, e < 22 → getB s Reg.layEvtPend e = false ∨ getB s Reg.layEvtEn e = false) →
      exec .eventTake s = .next s)
  ∧ (∀ s : State, s.cleat.pinLow = true → Does .faultPinHoldEnd s (fun t => t.cleat.pinHold = false
      ∧ t.cleat.pinLow = (match s.power.mode with
        | .raise | .limp | .dormant | .standby => true
        | .off => false
        | .run | .holdover | .workshop | .quiesce => pinSourced s || getB s Reg.sysFaultPin 15
            || (getB s Reg.sysFaultPin 14 && getB s Reg.sysFaultPin 13))
      ∧ (∀ r, r ≠ Reg.sysFaultPin → getReg t r = getReg s r) ∧ t.lay = s.lay ∧ t.mem = s.mem ∧ t.power = s.power))
  ∧ (∀ (s : State) (mv : BitVec 16), s.power.mode ∉ [.off, .dormant, .standby] → Does (.vccMeasurement mv) s (fun t =>
      getF t Reg.pwrVmon 15 0 = mv.toNat ∧ (mv.toNat < 2900 → t.power.vccLow = true ∧ getB t Reg.pwrVmon 30 = true)
      ∧ (mv.toNat ≥ 2950 → t.power.vccLow = false ∧ getB t Reg.pwrVmon 30 = getB s Reg.pwrVmon 30)
      ∧ (2900 ≤ mv.toNat → mv.toNat < 2950 → t.power.vccLow = s.power.vccLow) ∧ ButReg Reg.pwrVmon { s with power := t.power } t
      ∧ t.power = { s.power with vccLow := t.power.vccLow, xpValid := t.power.xpValid }
      ∧ t.power.xpValid = (s.power.xpValid || (decide (3000 ≤ mv.toNat ∧ mv.toNat ≤ 5500) && vddxGood s.power.vddxMv))))
  ∧ (∀ (s : State) (mv : BitVec 16), s.power.mode ∈ [.off, .dormant, .standby] → exec (.vccMeasurement mv) s = .next s)
  ∧ (∀ (s : State) (mv : BitVec 16), exec (.vddxValid mv) s = .next { s with power := { s.power with
      vddxMv := mv.toNat,
      xpValid := s.power.xpValid || (decide (s.power.mode ≠ .off) && !s.power.vccLow && vddxGood mv.toNat) } })

namespace Sys2Proof.Machine.Claim

/-- The device wakes from s by the sources of a mask (R243, R249, R250): RAISE with its cause, from step 3; the programs and
the RAMs are clear; the sources are recorded. -/
def Woken (s : State) (mask : Nat) (t : State) : Prop :=
  t.power.mode = .raise ∧ t.power.prev = s.power.mode ∧ t.power.raise = .reference
  ∧ getF t Reg.sysReason 19 16 = (if s.power.mode = .dormant then 3 else 4)
  ∧ getF t Reg.pwrWakeSrc 7 0 = mask ∧ getF t Reg.pwrWakeSrc 31 24 = upTo 255 (getF s Reg.pwrWakeSrc 31 24)
  ∧ t.power.dueRequest = decide (Nat.land mask (2 * getF s Reg.pwrWakeEn 23 17) ≠ 0)
  ∧ t.power.dueResume = (getB s Reg.pwrWakeEn 24 && decide (mask / 2 % 128 ≠ 0))
  ∧ t.lay = Lay.init ∧ t.mem.deck = [] ∧ t.mem.strand = [] ∧ t.mem.ext = s.mem.ext ∧ t.straps = s.straps
  ∧ getReg t Reg.pwrWakeEn = getReg s Reg.pwrWakeEn ∧ getReg t Reg.cltLadderCfg = getReg s Reg.cltLadderCfg
  ∧ (∀ e k, e < 16 → k < 4 → getReg t (Reg.log e k) = getReg s (Reg.log e k)) ∧ pllRuns t = false

/-- The WAKE line is pulled low, with flags of PWR_WAKE_SRC set (R255). -/
def PullsWake (s : State) (request resume : Bool) (t : State) : Prop :=
  t.power.wakeLow = true ∧ t.power.dueRequest = false ∧ t.power.dueResume = false
  ∧ getB t Reg.pwrWakeSrc 8 = (request || getB s Reg.pwrWakeSrc 8) ∧ getB t Reg.pwrWakeSrc 9 = (resume || getB s Reg.pwrWakeSrc 9)
  ∧ (∀ r, r ≠ Reg.pwrWakeSrc → getReg t r = getReg s r) ∧ t.lay = s.lay ∧ t.mem = s.mem ∧ t.power.mode = s.power.mode

/-- The commander's wake ends this device's signal (R260, R758). -/
def LinWoken (s t : State) : Prop :=
  t.hal = { s.hal with wake := .idle, wakeDue := false } ∧ getB t Reg.pwrWakeSrc 10 = true
  ∧ (∀ r, r ≠ Reg.pwrWakeSrc → getReg t r = getReg s r) ∧ t.lay = s.lay ∧ t.mem = s.mem ∧ t.power = s.power

end Sys2Proof.Machine.Claim

/-- R204, R243, R248 to R250, R255 to R257, R703: wakes. In DORMANT and STANDBY an enabled source starts RAISE and is
recorded; in QUIESCE it is held; elsewhere it has no effect. The timer is source 7 where its limit is not 0. The WAKE line
is pulled after a wake that asks for it, or by a write of PULSE, and released after its pulse. R246, R260 to R262, R749, R756 to R758: LIN sleep and wake. A due wake-up signal is driven, at most three in a block, until the
bus is seen dominant, the port is switched off or its mode no longer serves it; a go-to-sleep frame and, with its enable, an idle bus ask for QUIESCE towards the mode that
PWR_DORMANT_CFG names.
Resting on the model's choices in log entries 2, 55 and 64. -/
def Obligations.WakesSleepAndLinWake : Prop :=
  ((∀ (s : State) (srcs : BitVec 8),
      let mask := Nat.land srcs.toNat (getF s Reg.pwrWakeEn 7 0)
      (mask = 0 ∨ s.power.mode ∉ [.dormant, .standby, .quiesce] → exec (.wake srcs) s = .next s)
      ∧ (mask ≠ 0 → s.power.mode ∈ [.dormant, .standby] → Does (.wake srcs) s (Woken s mask))
      ∧ (mask ≠ 0 → s.power.mode = .quiesce → exec (.wake srcs) s = .next { s with power := { s.power with
          heldWake := some (Nat.lor (s.power.heldWake.getD 0) mask) } }))
    ∧ (∀ s : State, s.power.mode ∈ [.dormant, .standby] → getF s Reg.pwrDormantCfg 15 0 ≠ 0 → getB s Reg.pwrWakeEn 7 = true →
        Does .wakeTimer s (Woken s 128))
    ∧ (∀ s : State, (s.power.mode ∉ [.dormant, .standby] ∨ getF s Reg.pwrDormantCfg 15 0 = 0 ∨ getB s Reg.pwrWakeEn 7 = false) →
        exec .wakeTimer s = .next s)
    ∧ (∀ s : State, (s.power.dueRequest = true ∨ s.power.dueResume = true → Does (.wakePulse none) s (PullsWake s s.power.dueRequest s.power.dueResume))
        ∧ (s.power.dueRequest = false → s.power.dueResume = false → exec (.wakePulse none) s = .next s))
    ∧ (∀ (s : State) (src : Source) (v : Word), Open s src Reg.pwrWakeEn → Does (.wakePulse (some ⟨src, v⟩)) s (fun t =>
        getF t Reg.pwrWakeEn 7 0 = fld v 7 0 ∧ getF t Reg.pwrWakeEn 23 17 = fld v 23 17 ∧ getB t Reg.pwrWakeEn 24 = bit v 24
        ∧ (slackMode s.power.mode = true → t.power.wakeLow = true ∧ getB t Reg.pwrWakeSrc 9 = true) ∧ t.lay = s.lay ∧ t.mem = s.mem))
    ∧ (∀ s : State, exec .wakePulseEnd s = .next { s with power := { s.power with wakeLow := false } }))
  ∧ ((∀ s : State, s.hal.wakeDue = true → pinModes s.power.mode = true → halMode s ≠ 0 →
        exec (.linWakeSend none false) s = .next { s with hal := { s.hal with wake := .signal 1, wakeDue := false } }
        ∧ Does (.linWakeSend none true) s (LinWoken s))
    ∧ (∀ (s : State) (d : Bool), (s.hal.wakeDue = false ∨ halMode s = 0) → exec (.linWakeSend none d) s = .next s)
    ∧ (∀ (s : State) (src : Source) (v : Word), Open s src Reg.halWake → pinModes s.power.mode = true → s.hal.wake = .idle → halMode s ≠ 0 →
        Does (.linWakeSend (some ⟨src, v⟩) false) s (fun t => t.hal = { s.hal with wake := .signal 1, wakeDue := false }
          ∧ getF t Reg.halWake 23 16 = fld v 23 16 ∧ t.lay = s.lay ∧ t.mem = s.mem ∧ t.power = s.power))
    ∧ (∀ (s : State) (n : Nat),
        (s.hal.wake = .signal n → halMode s ≠ 0 → exec (.linWakeEnd false) s = .next { s with hal := { s.hal with wake := .waiting n } }
          ∧ Does (.linWakeEnd true) s (LinWoken s))
        ∧ (s.hal.wake = .signal n → halMode s = 0 → ∀ d, exec (.linWakeEnd d) s = .next { s with hal := { s.hal with wake := .idle } })
        ∧ (s.hal.wake = .waiting n → pinModes s.power.mode = true → halMode s ≠ 0 → exec (.linWakeRetry false) s = .next { s with hal := { s.hal with
              wake := .signal (if n ≥ 3 then 1 else n + 1) } }
          ∧ Does (.linWakeRetry true) s (LinWoken s))
        ∧ (s.hal.wake = .waiting n → pinModes s.power.mode = false ∨ halMode s = 0 → ∀ d,
            exec (.linWakeRetry d) s = .next { s with hal := { s.hal with wake := .idle } })
        ∧ (s.hal.wake = .signal n → ∀ d, exec (.linWakeRetry d) s = .next s)
        ∧ (s.hal.wake = .waiting n → ∀ d, exec (.linWakeEnd d) s = .next s))
    ∧ (∀ (s : State) (d : Bool), s.hal.wake = .idle → exec (.linWakeEnd d) s = .next s ∧ exec (.linWakeRetry d) s = .next s)
    ∧ (∀ s : State, s.power.factory = false → s.power.mode ∈ [.run, .holdover, .workshop] → s.power.pendingReq = none → s.clock.holdDue = false → NoSinkWrites s →
        getF s Reg.pwrDormantCfg 17 16 ≤ 1 →
        let asks := fun (t : State) => t.power.mode = .quiesce ∧ t.power.prev = s.power.mode
          ∧ t.power.sleepTarget = (if getF s Reg.pwrDormantCfg 17 16 = 1 then .standby else .dormant) ∧ getF t Reg.sysModeReq 11 8 = 1
        (halMode s = 2 → s.hal.heard = true → getB s Reg.pwrDormantCfg 18 = true → Does .linBusIdle s asks)
        ∧ (∀ pid len bytes, s.hal.phase = .data pid none len bytes → bytes.length > len → Does .goToSleep s (fun t => asks t
            ∧ t.hal.phase = .wait)))
    ∧ (∀ s : State, (s.hal.heard = false ∨ getB s Reg.pwrDormantCfg 18 = false) → exec .linBusIdle s = .next s)
    ∧ (∀ s : State, wholeFrame s = none → exec .goToSleep s = .next s))

/-! ### The Halyard port -/

namespace Sys2Proof.Machine.Claim

/-- The port's flag n is set and its count at bits [lo + 7:lo] of HAL_ERRCNT goes up (R760). -/
def HalErr (s : State) (n lo : Nat) (t : State) : Prop :=
  getB t Reg.halStatus n = true ∧ getF t Reg.halErrcnt (lo + 7) lo = upTo 255 (getF s Reg.halErrcnt (lo + 7) lo)

/-- What a LIN command leaves alone. -/
def HalOnly (s t : State) : Prop :=
  t.lay = s.lay ∧ t.mem = s.mem ∧ t.power = s.power ∧ t.splice = s.splice ∧ t.clock = s.clock ∧ t.rope = s.rope ∧ t.twb = s.twb
  ∧ t.hal.table = s.hal.table ∧ t.hal.rx = s.hal.rx ∧ t.hal.tx = s.hal.tx ∧ frameNo t = frameNo s

/-- The value v of LIN entry i goes to cell p: staged, armed for the next frame (R519, R746, R747). -/
def ParamArmed (s : State) (p : SplnEntry) (v : Cell) (t : State) : Prop :=
  t.splice.state = .armed ∧ t.splice.owner = .rom ∧ getReg t Reg.splCommitFrame = frameNo s + 1 ∧ t.splice.armG = p.glide
  ∧ sget zero (shadowTable t) p.cell = v ∧ activeTable t = activeTable s
  ∧ (∀ j, j ≠ p.cell → sget zero (shadowTable t) j = sget zero (shadowTable s) j)

end Sys2Proof.Machine.Claim

/-- R722, R726 to R734: characters. Each bit is the majority of its three samples; a received byte enters the FIFO of 16 with
its parity and framing marks, and posts the Halyard event into an empty FIFO; into a full one it is lost and flagged. A write
of HAL_BUF is sent at once or queues behind 16, a read takes the oldest byte, and the transmitter goes on until it is empty,
when a waiting HAL_CFG takes effect.
Resting on the model's choice in log entry 64. -/
def Obligations.UartCharactersComplete : Prop :=
  (∀ (c : CharSamples) (i : Fin 8), (charByte c).getLsbD i = majority c.data[i]
      ∧ ∀ b : BitVec 3, majority b = (b.getLsbD 0 && b.getLsbD 1 || b.getLsbD 0 && b.getLsbD 2 || b.getLsbD 1 && b.getLsbD 2))
  ∧ (∀ (s : State) (c : CharSamples), halServes s = true → majority c.start = false → halMode s = 1 → majority c.stop = true →
      (s.hal.rx.length < 16 → Does (.uartCharacter c) s (fun t => t.hal.rx = s.hal.rx
            ++ [BitVec.ofNat 10 (b2n (parityBad s c) * 512 + (charByte c).toNat)] ∧ t.hal.tx = s.hal.tx
          ∧ getB t Reg.layEvtPend 21 = (s.hal.rx.isEmpty || getB s Reg.layEvtPend 21) ∧ (∀ r, r ≠ Reg.layEvtPend → getReg t r = getReg s r)
          ∧ t.lay = s.lay ∧ t.mem = s.mem ∧ t.cleat = s.cleat))
      ∧ (s.hal.rx.length ≥ 16 → Does (.uartCharacter c) s (fun t => t.hal = s.hal ∧ HalErr s 14 24 t ∧ t.lay = s.lay ∧ t.mem = s.mem)))
  ∧ (∀ (s : State) (c : CharSamples), halServes s = true → majority c.start = false → halMode s = 1 → majority c.stop = false →
      s.hal.rx.length < 16 → Does (.uartCharacter c) s (fun t => HalErr s 8 0 t ∧ t.hal.rx = s.hal.rx
            ++ [BitVec.ofNat 10 (b2n (parityBad s c) * 512 + 256 + (charByte c).toNat)]
        ∧ (getB s Reg.cltLogHead 22 = false → s.cleat.queue.length < 4 → t.cleat.queue = s.cleat.queue
            ++ [⟨.halFraming, .none, false, false, false, s.clock.slot, 0, frameNo s, BitVec.ofNat 32 (charByte c).toNat⟩])))
  ∧ (∀ (s : State) (c : CharSamples), (halServes s = false ∨ majority c.start = true ∨ halMode s = 0) → exec (.uartCharacter c) s = .next s)
  ∧ (∀ (s : State) (src : Source) (v : Word), Open s src Reg.halBuf →
      (halMode s = 1 → s.hal.shift = none → Does (.halBufWrite src v) s
          (ButPin { s with hal := { s.hal with shift := some (v.setWidth 8), txEmpty := false } }))
      ∧ (halMode s = 1 → s.hal.shift ≠ none → s.hal.tx.length < 16 → Does (.halBufWrite src v) s
          (ButPin { s with hal := { s.hal with tx := s.hal.tx ++ [v.setWidth 8], txEmpty := false } }))
      ∧ (halMode s ≠ 1 ∨ (s.hal.shift ≠ none ∧ s.hal.tx.length ≥ 16) → Does (.halBufWrite src v) s (ButPin s)))
  ∧ (∀ (s : State) (src : Source), (slackMode s.power.mode = true → s.power.factory = false → halMode s = 1 →
        exec (.halBufRead src) s = .next { s with hal := { s.hal with rx := s.hal.rx.drop 1 } })
      ∧ (slackMode s.power.mode = false ∨ s.power.factory = true ∨ halMode s ≠ 1 → exec (.halBufRead src) s = .next s))
  ∧ (∀ (s : State), (s.hal.shift = none → exec .characterSent s = .next s)
      ∧ (∀ b n rest, s.hal.shift = some b → s.hal.tx = n :: rest →
          exec .characterSent s = .next { s with hal := { s.hal with shift := some n, tx := rest } })
      ∧ (∀ b, s.hal.shift = some b → s.hal.tx = [] → Does .characterSent s (fun t => t.hal.shift = none ∧ t.hal.txEmpty = true
          ∧ t.hal.cfgPend = none ∧ getReg t Reg.halCfg = s.hal.cfgPend.getD (getReg s Reg.halCfg)
          ∧ (∀ r, r ≠ Reg.halCfg → getReg t r = getReg s r) ∧ t.hal.rx = s.hal.rx ∧ t.lay = s.lay ∧ t.mem = s.mem)))

/-- R735 to R744, R749, R750: LIN frames. A break of enough bits awaits the sync byte, a sync byte within 2 % the PID, and a PID with
good parity its entry's frame, each flagged where its stop bit fails (R732): data to collect or a response to publish. A frame with a good checksum sets FRAME_OK and
posts its PID; errors are flagged, counted and set RESP_ERR; a response is the refreshed data and its checksum, and one that
reports RESP_ERR clears it. R519, R746 to R748: complete LIN frames. A PARAM_IN value is staged and armed for the next frame, or kept while the splice
unit refuses it and tried again by a Slack pass; a trigger frame sets the triggers, which a silence clears.
Resting on the model's choices in log entries 15 and 64. -/
def Obligations.LinFramesParametersAndTriggers : Prop :=
  ((∀ (s : State) (bits : BitVec 8), linLive s = true → getF s Reg.halLinCfg 3 0 ≤ bits.toNat →
        exec (.linBreak bits) s = .next { s with hal := { s.hal with phase := .sync, period := none, wake := .idle } })
    ∧ (∀ (s : State) (bits : BitVec 8), (linLive s = false ∨ bits.toNat < getF s Reg.halLinCfg 3 0) → exec (.linBreak bits) s = .next s)
    ∧ (∀ (s : State) (b : Byte) (n : BitVec 32), linLive s = true → s.hal.phase = .sync →
        let off := ((2 * n.toNat : Nat) - (getF s Reg.halBaud 23 0 : Int)).natAbs
        (b = 0x55 → 50 * off ≤ getF s Reg.halBaud 23 0 → exec (.linSync b n) s = .next { s with hal := { s.hal with
            phase := .pid, period := if getB s Reg.halLinCfg 8 then some (2 * n.toNat) else none } })
        ∧ (b = 0x55 → 50 * off ≤ getF s Reg.halBaud 23 0 → Does (.linSync b n true) s (fun t => HalErr s 8 0 t ∧ HalOnly s t
            ∧ t.hal = { s.hal with phase := .pid, period := if getB s Reg.halLinCfg 8 then some (2 * n.toNat) else none }))
        ∧ (b ≠ 0x55 ∨ 50 * off > getF s Reg.halBaud 23 0 → ∀ badStop, Does (.linSync b n badStop) s (fun t =>
            t.hal = { s.hal with phase := .wait } ∧ HalErr s 11 24 t ∧ HalOnly s t ∧ (badStop = true → HalErr s 8 0 t))))
    ∧ (∀ (s : State) (pid : Byte), linLive s = true → s.hal.phase = .pid → pinModes s.power.mode = true →
        (pidParity pid = false → ∀ badStop, Does (.linPid pid badStop) s (fun t => t.hal = { s.hal with phase := .wait, lastPid := pid }
            ∧ HalErr s 9 8 t ∧ HalOnly s t ∧ (badStop = true → HalErr s 8 0 t)))
        ∧ (pidParity pid = true → ∀ ph : LinPhase,
            (∀ i e, s.hal.table.findIdx? (fun e => e.id == pid.toNat % 64) = some i → s.hal.table[i]? = some e →
              ph = if e.publish then .publish pid i else .data pid (some i) e.len []) →
            (s.hal.table.findIdx? (fun e => e.id == pid.toNat % 64) = none → ph = if pid.toNat % 64 = 0x3C then .data pid none 8 [] else .wait) →
            exec (.linPid pid) s = .next { s with hal := { s.hal with phase := ph, lastPid := pid } }
            ∧ Does (.linPid pid true) s (fun t => HalErr s 8 0 t ∧ HalOnly s t ∧ t.hal = { s.hal with
                phase := ph, lastPid := pid,
                respErr := s.hal.respErr || (s.hal.table.findIdx? (fun e => e.id == pid.toNat % 64)).isSome })))
    ∧ (∀ (s : State) (c : CharSamples) (pid : Byte) (entry : Option Nat) (len : Nat) (bytes : List Byte), linLive s = true →
        majority c.start = false → s.hal.phase = .data pid entry len bytes →
        (bytes.length < len → majority c.stop = true → exec (.uartCharacter c) s = .next { s with hal := { s.hal with
            phase := .data pid entry len (bytes ++ [charByte c]) } })
        ∧ (bytes.length < len → majority c.stop = false → Does (.uartCharacter c) s (fun t => HalErr s 8 0 t ∧ HalOnly s t
            ∧ t.hal.respErr = (s.hal.respErr || entry.isSome) ∧ t.hal.phase = .data pid entry len (bytes ++ [charByte c])))
        ∧ (∀ i e, entry = some i → s.hal.table[i]? = some e → bytes.length = len → majority c.stop = true →
            ((charByte c).toNat = checksum e.classic pid bytes → Does (.uartCharacter c) s (fun t => HalOnly s t ∧ t.hal.heard = true
                ∧ t.hal.phase = .data pid entry len (bytes ++ [charByte c]) ∧ getB t Reg.halStatus 15 = true
                ∧ getB t Reg.layEvtPend 21 = true ∧ (vget t.events.data 21 0).toNat = pid.toNat))
            ∧ ((charByte c).toNat ≠ checksum e.classic pid bytes → Does (.uartCharacter c) s (fun t => HalOnly s t ∧ HalErr s 10 16 t
                ∧ t.hal.respErr = true ∧ t.hal.phase = .wait))))
    ∧ (∀ (s : State) (pid : Byte) (i : Nat) (e : FrameEntry), linLive s = true → s.hal.phase = .publish pid i → s.hal.table[i]? = some e →
        let data := s.hal.resp.getD i []
        Does (.linPublish false) s (fun t => HalOnly s t ∧ t.hal.sent = data ++ [BitVec.ofNat 8 (checksum e.classic pid data)]
          ∧ t.hal.phase = .wait ∧ getB t Reg.halStatus 15 = true ∧ getB t Reg.layEvtPend 21 = true ∧ (vget t.events.data 21 0).toNat = pid.toNat
          ∧ t.hal.respErr = (s.hal.respErr && !(decide (e.kind = 3) && (data.headD 0).getLsbD 0)))
        ∧ Does (.linPublish true) s (fun t => HalOnly s t ∧ HalErr s 12 24 t ∧ t.hal.respErr = true ∧ t.hal.phase = .wait
            ∧ t.hal.sent = s.hal.sent))
    ∧ (∀ (s : State) (pid : Byte) (entry : Option Nat) (len : Nat) (bytes : List Byte), s.hal.phase = .data pid entry len bytes →
        bytes.length ≤ len → (entry ≠ none → Does .noResp s (fun t => HalOnly s t ∧ HalErr s 13 24 t ∧ t.hal.respErr = true ∧ t.hal.phase = .wait))
          ∧ (entry = none → exec .noResp s = .next { s with hal := { s.hal with phase := .wait } }))
    ∧ (∀ s : State, s.hal.phase ∈ [.wait, .sync, .pid] → exec .noResp s = .next s ∧ ∀ b, exec (.linPublish b) s = .next s))
  ∧ ((∀ (s : State) (i : Nat) (e : FrameEntry) (bytes : List Byte) (p : SplnEntry), wholeEntry s 1 = some (i, e, bytes) →
        pinModes s.power.mode = true → findParam s e.param = some p → spliceTakes s .rom = true → Does .paramIn s (fun t => ParamArmed s p (paramInCell e bytes) t
          ∧ t.hal.phase = .wait ∧ t.hal.keep = s.hal.keep.filter (fun k => k.1 != i)))
    ∧ (∀ (s : State) (i : Nat) (e : FrameEntry) (bytes : List Byte) (p : SplnEntry), wholeEntry s 1 = some (i, e, bytes) →
        pinModes s.power.mode = true → findParam s e.param = some p → spliceTakes s .rom = false → Does .paramIn s (fun t => t.splice = s.splice ∧ t.mem = s.mem
          ∧ t.hal.phase = .wait ∧ t.hal.keep = s.hal.keep.filter (fun k => k.1 != i) ++ [(i, paramInCell e bytes)]
          ∧ getB t Reg.splStatus 4 = true))
    ∧ (∀ s : State, (wholeEntry s 1 = none ∨ pinModes s.power.mode = false) → exec .paramIn s = .next s)
    ∧ (∀ (e : FrameEntry) (bytes : List Byte), 1 ≤ e.width → e.width ≤ 2 → let v := leNat ((List.range e.width).map (fun k => bytes.getD (e.off + k) 0))
        (paramInCell e bytes).toNat = v * 2 ^ ((if e.isSigned then 24 else 23) - 8 * e.width))
    ∧ (∀ (s : State) (i : Nat) (v : Cell) (e : FrameEntry) (p : SplnEntry), pinModes s.power.mode = true → s.hal.keep = [(i, v)] →
        s.hal.table[i]? = some e → findParam s e.param = some p →
        (spliceTakes s .rom = true → Does .paramRetry s (fun t => ParamArmed s p v t ∧ t.hal.keep = []))
        ∧ (spliceTakes s .rom = false → Does .paramRetry s (fun t => t.hal.keep = [(i, v)] ∧ t.splice = s.splice ∧ t.mem = s.mem)))
    ∧ (∀ s : State, (pinModes s.power.mode = false ∨ s.hal.keep = []) → exec .paramRetry s = .next s)
    ∧ (∀ (s : State) (i : Nat) (e : FrameEntry) (bytes : List Byte), wholeEntry s 2 = some (i, e, bytes) → pinModes s.power.mode = true →
        exec .trigger s = .next { s with hal := { s.hal with
          trigA := (bytes.getD e.off 0).getLsbD 0, trigB := (bytes.getD e.off 0).getLsbD 1, phase := .wait } })
    ∧ (∀ s : State, (wholeEntry s 2 = none ∨ pinModes s.power.mode = false) → exec .trigger s = .next s)
    ∧ (∀ s : State, exec .triggerTimeout s = .next { s with hal := { s.hal with trigA := false, trigB := false } }))

/-! ### The two-wire bus -/

namespace Sys2Proof.Machine.Claim

/-- The device gave these acknowledge bits and sent these bytes; nothing else happened. -/
def twbSaid (s : State) (acks : List Bool) (sent : List Byte) : State := { s with twb := { s.twb with acks := acks, sent := sent } }

/-- The bytes of a read command: the registers, little-endian, PEC where it is asked for, then 0xFF (R7, R685, R690). -/
def commandBytes (s : State) (code : Nat) (pec : Bool) (rs : List Nat) (n : Nat) : List Byte :=
  let data := rs.flatMap (fun r => bytesOf (viewReg s .twb r))
  let addr := fld (twbAddrWord s) 6 0 * 2
  let crc := BitVec.ofNat 8 (crc8 ([BitVec.ofNat 8 addr, BitVec.ofNat 8 (code + 128), BitVec.ofNat 8 (addr + 1)] ++ data))
  (List.range n).map (fun i => (if pec then data ++ [crc] else data).getD i 0xFF)

/-- A bundle's load begins with the bytes of its first chunk (R556 to R558). -/
def LoadBegins (payload : List Byte) (rope : Bool) (t : State) : Prop :=
  (payload.length < 4 ∨ imgMagic payload = 0x4C53494D → t.loader.state = .receiving ∧ t.loader.bytes = payload ∧ t.loader.overRope = rope)
  ∧ (payload.length ≥ 4 → imgMagic payload ≠ 0x4C53494D → t.loader.state = .refused ∧ t.loader.bytes = [])

end Sys2Proof.Machine.Claim

/-- R683 to R694: the command plane. IDENT, STATUS, REASON and REPLY return their bytes; MODE does what the write of
SYS_MODE_REQ does; PARAM_SET and PARAM_GET wait for the ROM handler, which stages the parameter or reads its cell and
stores the reply, an error result where its read is annulled (R442); a second one meanwhile is not acknowledged. Without an answer the address is not acknowledged.
Resting on the model's choices in log entries 62, 75 and 90. -/
def Obligations.TwoWireCommandsComplete : Prop :=
  (∀ (s : State) (pec : Bool) (n : BitVec 6) (mk : Bool → BitVec 6 → Instr) (code : Nat) (rs : List Nat),
      (mk, code, rs) ∈ [(Instr.twbCmdIdent, 0x00, [Reg.idPart, Reg.idStep, Reg.idUniqueLo, Reg.idUniqueHi]),
        ((fun p n => .twbCmdStatus p false n), 0x01, [Reg.sysMode, Reg.sysStatus]),
        (.twbCmdReason, 0x02, [Reg.sysReason, Reg.sysStartCount, Reg.sysFrame])] →
      (twbAnswers s = false → exec (mk pec n) s = .next (twbSaid s [false] []))
      ∧ (twbAnswers s = true → (pec = false ∨ getB s Reg.twbCfg 28 = true) →
          exec (mk pec n) s = .next (twbSaid s [true, true, true] (commandBytes s code pec rs n.toNat)))
      ∧ (twbAnswers s = true → pec = true → getB s Reg.twbCfg 28 = false → exec (mk pec n) s = .next (twbSaid s [true, false] [])))
  ∧ (∀ (s : State) (pec : Bool) (n : BitVec 6), twbAnswers s = true → exec (.twbCmdStatus pec true n) s = .next (twbSaid s [true]
      (commandBytes s 0x01 false [Reg.sysMode, Reg.sysStatus] n.toNat)))
  ∧ (∀ (s : State) (n : BitVec 6), twbAnswers s = true → slackMode s.power.mode = true →
      (∀ code r data, s.twb.slack = none → s.twb.reply = (code, r, data) → exec (.twbCmdReply false n) s = .next (twbSaid s [true, true, true]
        ((List.range n.toNat).map (fun i => ([BitVec.ofNat 8 (2 + data.length), code, r] ++ data).getD i 0xFF))))
      ∧ (∀ code d, s.twb.slack = some (code, d) → exec (.twbCmdReply false n) s = .next (twbSaid s [true, true, true]
        ((List.range n.toNat).map (fun i => ([2, code, 2] : List Byte).getD i 0xFF)))))
  ∧ (∀ (s u : State) (d : Byte), twbAnswers s = true → s.power.mode ≠ .raise →
      exec (.registerWrite .twb 0 6 (BitVec.ofNat 32 (0x4D000000 + d.toNat % 16))) s = .next u →
      exec (.twbCmdMode ⟨false, [d], none⟩) s = .next (twbSaid u [true, true, true] []))
  ∧ (∀ (s : State) (d : List Byte), twbAnswers s = true → slackMode s.power.mode = true → s.twb.slack = none →
      (d.length = 6 ∧ d.headD 0 = 5 ∨ d.length = 10 ∧ d.headD 0 = 9 → Does (.paramSet ⟨false, d, none⟩) s (fun t =>
          t.twb.slack = some (0x08, d) ∧ t.twb.acks = true :: true :: d.map (fun _ => true) ∧ t.lay = s.lay ∧ t.mem = s.mem ∧ t.regs = s.regs))
      ∧ (d.length = 2 → Does (.paramGet ⟨false, d, none⟩) s (fun t => t.twb.slack = some (0x09, d)
          ∧ t.twb.acks = [true, true, true, true] ∧ t.lay = s.lay ∧ t.mem = s.mem ∧ t.regs = s.regs)))
  ∧ (∀ (s : State) (c : Byte × List Byte) (d : List Byte), twbAnswers s = true → slackMode s.power.mode = true → s.twb.slack = some c →
      ∀ cmd ∈ [Instr.paramSet ⟨false, d, none⟩, .paramGet ⟨false, d, none⟩], Does cmd s (fun t => t.twb.acks = [true, false]
        ∧ t.twb.slack = some c ∧ getB t Reg.twbStatus 3 = true ∧ getF t Reg.twbStatus 31 24 = upTo 255 (getF s Reg.twbStatus 31 24)))
  ∧ (∀ (s : State) (d : List Byte) (e : SplnEntry), slackMode s.power.mode = true → slackBetween s = true → s.twb.slack = some (0x08, d) → d.length = 6 →
      (findParam s (at16 d 1) = some e → spliceTakes s .rom = true → Does .slackCommandDone s (fun t => t.twb.slack = none
          ∧ t.twb.reply = (0x08, 1, []) ∧ ParamArmed s e (BitVec.ofNat 24 (at24 d 3)) t))
      ∧ (findParam s (at16 d 1) = some e → spliceTakes s .rom = false → Does .slackCommandDone s (fun t => t.twb.slack = none
          ∧ t.twb.reply = (0x08, 7, []) ∧ t.splice = s.splice ∧ t.mem = s.mem))
      ∧ (findParam s (at16 d 1) = none → exec .slackCommandDone s = .next { s with twb := { s.twb with slack := none, reply := (0x08, 8, []) } }))
  ∧ (∀ (s : State) (d : List Byte), slackMode s.power.mode = true → slackBetween s = true → s.twb.slack = some (0x09, d) →
      (∀ e, findParam s (at16 d 0) = some e → (eccAt s.mem (tableRam s) e.cell = none → exec .slackCommandDone s = .next { s with twb := { s.twb with
            slack := none, reply := (0x09, 1, (bytesOf ((tableCell s e.cell).setWidth 32)).take 3) } })
          ∧ (∀ x, eccAt s.mem (tableRam s) e.cell = some x → x.double = true → Does .slackCommandDone s (fun t => t.twb.slack = none
              ∧ t.twb.reply.1 = 0x09 ∧ 3 ≤ t.twb.reply.2.1.toNat ∧ t.twb.reply.2.1.toNat ≤ 9 ∧ t.twb.reply.2.2 = []
              ∧ getB t Reg.mapEccStatus 9 = true ∧ (getB s Reg.cltLogHead 22 = false → s.cleat.queue.length < 4 →
                ∃ it, t.cleat.queue = s.cleat.queue ++ [it] ∧ it.code = .ramEcc ∧ it.ctx = .rom
                  ∧ it.detail = BitVec.ofNat 32 (2 ^ 28 + e.cell)))))
      ∧ (findParam s (at16 d 0) = none → exec .slackCommandDone s = .next { s with twb := { s.twb with slack := none, reply := (0x09, 8, []) } }))
  ∧ (∀ s : State, (s.twb.slack = none ∨ slackMode s.power.mode = false ∨ slackBetween s = false) → exec .slackCommandDone s = .next s)

/-- R556 to R562, R695 to R700, R703, R706, R707: the pointer and bulk planes, wakes and timeouts. The pointer follows the bytes; four
bytes at an aligned pointer make a register access; PAGE stands at offset 0. In WORKSHOP a chunk at the next offset joins
the load, one at offset 0 begins a new one, any other is discarded, a byte not taken in time is not acknowledged and the rest
is discarded (R561), and a read tells where the load stands. A group address
wakes the device, and a bus line held low is flagged.
Resting on the model's choices in log entries 62 and 73. -/
def Obligations.TwoWirePlanesComplete : Prop :=
  (∀ (s : State) (data : List Byte) (n : BitVec 10) (m : BitVec 6), twbAnswers s = false →
      ∀ c ∈ [Instr.pointerPlaneWrite data, .pointerPlaneRead n, .bulkChunk data, .bulkStateRead m], exec c s = .next (twbSaid s [false] []))
  ∧ (∀ (s : State) (p g : Byte), twbAnswers s = true →
      exec (.pointerPlaneWrite [p]) s = .next (twbSaid { s with twb := { s.twb with ptr := p } } [true, true] [])
      ∧ (slackMode s.power.mode = true → exec (.pointerPlaneWrite [0, g]) s =
          .next (twbSaid { s with twb := { s.twb with ptr := 1, page := g } } [true, true, true] [])))
  ∧ (∀ (s u : State) (p : Byte) (w : Word), s.power.factory = false → slackMode s.power.mode = true → p.toNat % 4 = 0 → p ≠ 0 → s.twb.page.toNat ≤ 0x18 →
      let next : Byte := if p = 0xFC then 1 else p + 4
      let r := 64 * s.twb.page.toNat + p.toNat / 4
      writeReg .twb r w 0xF { s with twb := { s.twb with ptr := next } } = (u, false) →
      exec (.pointerPlaneWrite (p :: bytesOf w)) s = .next (twbSaid u [true, true, true, true, true, true] []))
  ∧ (∀ s : State, s.power.factory = false → slackMode s.power.mode = true → s.twb.ptr.toNat % 4 = 0 → s.twb.ptr ≠ 0 → s.twb.page.toNat ≤ 0x18 →
      Does (.pointerPlaneRead 4) s (fun t => t.twb.acks = [true]
        ∧ t.twb.sent = bytesOf (viewReg s .twb (64 * s.twb.page.toNat + s.twb.ptr.toNat / 4))
        ∧ t.twb.ptr = (if s.twb.ptr = 0xFC then 1 else s.twb.ptr + 4) ∧ t.twb.page = s.twb.page ∧ t.lay = s.lay
        ∧ t.mem.deck = s.mem.deck ∧ t.mem.strand = s.mem.strand ∧ t.power = s.power))
  ∧ (∀ (s : State) (data : List Byte), twbAnswers s = true → s.power.mode = .workshop → data.length ≥ 4 → data.length < 0x244 →
      (at32 data 0 = 0 → s.loader.state ≠ .receiving → Does (.bulkChunk data) s (fun t => LoadBegins (data.drop 4) false t
          ∧ t.twb.acks = true :: data.map (fun _ => true) ∧ getB t Reg.sysStatus 8 = false ∧ t.lay = s.lay))
      ∧ (at32 data 0 ≠ 0 → (s.loader.state ≠ .receiving ∨ at32 data 0 ≠ s.loader.bytes.length) →
          exec (.bulkChunk data) s = .next (twbSaid s (true :: data.map (fun _ => true)) []))
      ∧ (∀ k, 4 + k < data.length → at32 data 0 = 0 → s.loader.state ≠ .receiving → Does (.bulkChunk data (some k)) s (fun t =>
          LoadBegins ((data.drop 4).take k) false t ∧ t.twb.acks = List.replicate (5 + k) true ++ [false]
          ∧ getB t Reg.sysStatus 8 = false ∧ t.lay = s.lay)))
  ∧ (∀ (s : State) (data : List Byte) (m : BitVec 6), s.power.mode ≠ .workshop → exec (.bulkChunk data) s = .next (twbSaid s [false] [])
      ∧ exec (.bulkStateRead m) s = .next (twbSaid s [false] []))
  ∧ (∀ s : State, twbAnswers s = true → s.power.mode = .workshop → exec (.bulkStateRead 5) s = .next (twbSaid s [true]
      (bytesOf (BitVec.ofNat 32 (if s.loader.state = .receiving then s.loader.bytes.length else 0)) ++ [(match s.loader.state with
        | .none => 0
        | .receiving => 1
        | .accepted => 2
        | .refused => 3 : Byte)])))
  ∧ (∀ (s : State) (plane : BitVec 2), s.power.mode = .dormant → getB s Reg.pwrWakeEn 1 = true → plane ≠ 3 →
      Does (.twbWakeAddress plane) s (fun t => Woken s 2 t ∧ t.twb.acks = [!bit (twbAddrWord s) 8]
        ∧ (bit (twbAddrWord s) 8 = false → getB t Reg.twbStatus 7 = true)))
  ∧ (∀ (s : State) (plane : BitVec 2), (s.power.mode ≠ .dormant ∨ getB s Reg.pwrWakeEn 1 = false) → exec (.twbWakeAddress plane) s = .next s)
  ∧ (∀ (s : State) (c : Instr) (en flag : Nat) (f : FaultCode), (c, en, flag, f) ∈ [(Instr.twbSclLow, 0, 5, .twbSclLow), (.twbSdaLow, 1, 6, .twbSdaLow)] →
      (twbAnswers s = true → getB s Reg.twbTimeout en = true → Does c s (fun t => getB t Reg.twbStatus flag = true ∧ t.lay = s.lay ∧ t.mem = s.mem
        ∧ (getB s Reg.cltLogHead 22 = false → s.cleat.queue.length < 4 →
            t.cleat.queue = s.cleat.queue ++ [⟨f, .none, false, false, false, s.clock.slot, 0, frameNo s, 0⟩])))
      ∧ (twbAnswers s = false ∨ getB s Reg.twbTimeout en = false → exec c s = .next s))

namespace Sys2Proof.Machine.Claim

/-- The controller's transfer ends with a RESULT (R709): DONE is set and event 20 posted with it. -/
def TransferEnds (s : State) (result : Nat) (t : State) : Prop :=
  t.twb.job = none ∧ t.twb.result.toNat = result ∧ getB t Reg.twbCtrl 29 = true ∧ getB t Reg.layEvtPend 20 = true
  ∧ (vget t.events.data 20 0).toNat = result ∧ t.lay = s.lay ∧ t.mem = s.mem

end Sys2Proof.Machine.Claim

/-- R708 to R719, R545: the controller. GO starts the transfer that TWB_CTRL describes, where the controller is on and idle; it
ends with its RESULT, an address not acknowledged or a lost arbitration is tried again up to RETRY times, SCL timeouts and
a stuck bus end it; the buffer is read and written at INDEX; the TWBI script runs its writes, delays and end in turn.
Resting on the model's choices in log entries 49 and 63. -/
def Obligations.TwoWireControllerCompletes : Prop :=
  (∀ (s : State) (src : Source) (v : Word), Open s src Reg.twbCtrl → s.twb.job = none → getB s Reg.twbCfg 29 = true →
      fld v 13 8 ≤ 32 → fld v 5 0 ≤ 32 → Does (.twbControllerGo src v) s (fun t => t.lay = s.lay ∧ t.mem = s.mem ∧ t.twb.job = some
        ⟨BitVec.ofNat 7 (fld v 22 16), fld v 5 0, fld v 13 8, bit v 28 && getB s Reg.twbCfg 28, 0, false⟩))
  ∧ (∀ (s : State) (src : Source) (v : Word), Open s src Reg.twbCtrl → (s.twb.job ≠ none ∨ getB s Reg.twbCfg 29 = false) →
      Does (.twbControllerGo src v) s (fun t => t.twb = s.twb ∧ t.lay = s.lay ∧ t.mem = s.mem))
  ∧ (∀ (s : State) (j : TwbJob), s.twb.job = some j → j.script = false →
      (∀ e : TwbEnd, (e.nack = true → Does (.twbTransferDone e) s (TransferEnds s 2))
        ∧ (e.nack = false → j.pec = false → j.rlen ≤ 32 → Does (.twbTransferDone e) s (fun t => TransferEnds s 0 t
            ∧ ∀ i, i < 32 → sget zero t.twb.cbuf i = if i < j.rlen then vget e.data i 0 else sget zero s.twb.cbuf i)))
      ∧ (j.tries < getF s Reg.twbCfg 27 26 → exec .twbAddressRetry s = .next { s with twb := { s.twb with job := some { j with tries := j.tries + 1 } } }
          ∧ Does .arbitrationLost s (fun t => t.twb = { s.twb with job := some { j with tries := j.tries + 1 } } ∧ getB t Reg.twbStatus 8 = true))
      ∧ (j.tries ≥ getF s Reg.twbCfg 27 26 → Does .twbAddressRetry s (TransferEnds s 1)
          ∧ Does .arbitrationLost s (fun t => TransferEnds s 3 t ∧ getB t Reg.twbStatus 8 = true))
      ∧ (getB s Reg.twbTimeout 0 = true → Does .twbControllerSclTimeout s (fun t => TransferEnds s 4 t ∧ getB t Reg.twbStatus 5 = true))
      ∧ (getB s Reg.twbTimeout 0 = false → exec .twbControllerSclTimeout s = .next s)
      ∧ (getB s Reg.twbTimeout 1 = true → Does .busRecovery s (fun t => t.twb = { s.twb with
            sdaWait := true, stuckAt := some (s.twb.stuckAt.getD s.clock.time) } ∧ getB t Reg.twbStatus 6 = true ∧ t.lay = s.lay ∧ t.mem = s.mem))
      ∧ (getB s Reg.twbTimeout 1 = false → exec .busRecovery s = .next s)
      ∧ (s.twb.sdaWait = true → Does .busStuck s (TransferEnds s 5)))
  ∧ (∀ s : State, exec .sdaWaitClear s = .next { s with twb := { s.twb with sdaWait := false, stuckAt := none } })
  ∧ (∀ (s : State) (e : TwbEnd), s.twb.job = none → ∀ c ∈ [Instr.twbTransferDone e, .twbAddressRetry, .arbitrationLost, .twbControllerSclTimeout,
      .busRecovery, .busStuck], exec c s = .next s)
  ∧ (∀ (s : State) (src : Source) (v : Word), Open s src Reg.twbCbuf →
      (bit v 15 = true → Does (.twbCbufAccess src (some v)) s (fun t => getF t Reg.twbCbuf 13 8 = fld v 13 8 ∧ t.twb = s.twb ∧ t.lay = s.lay ∧ t.mem = s.mem))
      ∧ (bit v 15 = false → Does (.twbCbufAccess src (some v)) s (fun t => getF t Reg.twbCbuf 13 8 = (getF s Reg.twbCbuf 13 8 + 1) % 32
          ∧ t.lay = s.lay ∧ t.mem = s.mem ∧ ∀ i, sget zero t.twb.cbuf i = if i = getF s Reg.twbCbuf 13 8 % 32 then v.setWidth 8 else sget zero s.twb.cbuf i)))
  ∧ (∀ (s : State) (src : Source), slackMode s.power.mode = true → s.power.factory = false → Does (.twbCbufAccess src none) s (fun t =>
      getF t Reg.twbCbuf 13 8 = (getF s Reg.twbCbuf 13 8 + 1) % 32 ∧ t = { s with regs := t.regs } ∧ ∀ r, r ≠ Reg.twbCbuf → getReg t r = getReg s r))
  ∧ (∀ s : State, s.loader.twbiOn = true → s.twb.job = none → slackMode s.power.mode = true → ∀ (op : Byte) (rest : List Byte), s.loader.twbi = op :: rest →
      (op = 1 → getB s Reg.twbCfg 29 = true → Does .twbiWrite s (fun t => t.lay = s.lay ∧ t.mem = s.mem ∧ t.twb.job = some
          { addr := BitVec.ofNat 7 (at8 s.loader.twbi 1), wlen := at8 s.loader.twbi 2, rlen := 0, pec := false, tries := 0, script := true }
          ∧ (at8 s.loader.twbi 2 ≤ 32 → ∀ i, i < at8 s.loader.twbi 2 → sget zero t.twb.cbuf i = s.loader.twbi.getD (4 + i) 0)
          ∧ t.loader.twbi = s.loader.twbi.drop ((4 + at8 s.loader.twbi 2 + 3) / 4 * 4)))
      ∧ (op = 2 → exec .twbiDelay s = .next { s with loader := { s.loader with twbi := s.loader.twbi.drop 4 } })
      ∧ (op = 0 → exec .twbiEnd s = .next { s with loader := { s.loader with twbi := [], twbiOn := false } }))
  ∧ (∀ s : State, s.loader.twbiOn = false → ∀ c ∈ [Instr.twbiWrite, .twbiDelay, .twbiEnd], exec c s = .next s)

/-! ### The rope -/

namespace Sys2Proof.Machine.Claim

/-- A worker hears an exchange of whole words, headed h, while no request executes (R644 to R646). -/
structure Heard (s : State) (x : Exchange) (h : Word) (ws : List Word) : Prop where
  hears : ropeHears s = true
  free  : s.rope.next = none
  whole : x.extra = 0
  words : x.words = h :: ws

/-- The exchange carries a request with opcode op and n payload words that is well framed and no retry (R642, R643, R647, R652). -/
structure Request (s : State) (x : Exchange) (op n : Nat) (h : Word) (ws : List Word) : Prop where
  heard    : Heard s x h ws
  opcode   : fld h 31 24 = op
  length   : fld h 23 16 = n
  enough   : n ≤ ws.length
  crc      : bit h 0 = false ∨ (getB s Reg.ropCfg 27 = true ∧ n < ws.length ∧ ws.getD n 0 = crcWord (h :: ws.take n))
  reserved : fld h 7 3 = 0
  first    : bit h 1 = false

/-- The words that a worker sends during an exchange: the reply of the request before it, and the RSS# fall is stamped (R644, R649, R662). -/
def Exchanged (s : State) (x : Exchange) (r : Reply) (t : State) : Prop :=
  t.rope.sent = replyWords s r
  ∧ getReg t Reg.ropStamp = BitVec.ofNat 32 (x.fallFrame.toNat % 256 * 2 ^ 24 + x.fallSlot.toNat)

/-- The request is executed: its reply with result r waits to become ready, and stands as the last one (R650, R652). -/
def Answers (s : State) (x : Exchange) (h : Word) (r : Nat) (payload : List Word) (t : State) : Prop :=
  Exchanged s x s.rope.reply t ∧ t.rope.next = some ⟨byteOf h 1, BitVec.ofNat 8 r, payload, bit h 2⟩
  ∧ t.rope.last = some ⟨byteOf h 1, BitVec.ofNat 8 r, payload, bit h 2⟩ ∧ t.rope.lenErr = false

/-- The request is not executed: its reply is ready at once (R647, R652, R654). -/
def Rejects (s : State) (x : Exchange) (r : Reply) (t : State) : Prop :=
  Exchanged s x s.rope.reply t ∧ t.rope.reply = r ∧ t.rope.next = none ∧ t.rope.last = s.rope.last
  ∧ t.lay = s.lay ∧ t.mem = s.mem ∧ t.power = s.power ∧ t.tickPend = s.tickPend ∧ t.splice = s.splice

/-- What an executed request with no effect beyond its reply leaves alone. -/
def RopeOnly (s t : State) : Prop :=
  t.lay = s.lay ∧ t.mem = s.mem ∧ t.power = s.power ∧ t.tickPend = s.tickPend ∧ t.splice = s.splice
  ∧ ∀ r, r ≠ Reg.ropStamp → getReg t r = getReg s r

/-- The rows of Table 13.7. -/
def ropeRows : List ((Exchange → Instr) × Nat) := [
  (.ropeNop, 0), (.ropeIdent, 1), (.ropeStatus, 2), (.ropeRead, 3), (.ropeWrite, 4), (.cells, 5), (.setFrame, 6), (.time, 7),
  (.leaveLimp, 8), (.imgChunk, 9), (.imgState, 10)]

/-- The payload lengths that Table 13.7 gives an opcode. -/
def lengthOk (op n : Nat) : Bool :=
  match op with
  | 0 | 1 | 2 | 7 | 10 => n == 0
  | 3 | 6 | 8 => n == 1
  | 4 => n != 0 && n % 2 == 0 && decide (n ≤ 126)
  | 5 => decide (2 ≤ n) && decide (n ≤ 126)
  | _ => decide (1 ≤ n) && decide (n ≤ 126)

end Sys2Proof.Machine.Claim

/-- R654 to R660, R884, R886, Table 13.7: what each request does. NOP answers OK; IDENT, STATUS and TIME return their words; READ
returns consecutive registers, WRITE writes them and names a denied record, CELLS writes Deck cells, SET_FRAME writes
SYS_FRAME inside its window, LEAVE_LIMP makes the mode request, and the image requests take a chunk and tell where the load
stands.
Resting on the model's choices in log entries 45 and 58. -/
def Obligations.RopeRequestsExecute : Prop :=
  (∀ (s : State) (x : Exchange) (h : Word) (ws : List Word),
      (Request s x 0 0 h ws → Does (.ropeNop x) s (fun t => Answers s x h 1 [] t ∧ RopeOnly s t))
      ∧ (Request s x 1 0 h ws → Does (.ropeIdent x) s (fun t => RopeOnly s t ∧ Answers s x h 1
          ([Reg.idPart, Reg.idStep, Reg.idUniqueLo, Reg.idUniqueHi, Reg.ropNode, Reg.strMs].map (viewReg s .rope)) t))
      ∧ (Request s x 2 0 h ws → Does (.ropeStatus x) s (fun t => RopeOnly s t ∧ Answers s x h 1
          ([Reg.sysMode, Reg.sysStatus, Reg.sysReason, Reg.sysStartCount, Reg.sysFrame].map (viewReg s .rope)) t))
      ∧ (Request s x 7 0 h ws → s.power.mode ≠ .limp → Does (.time x) s (fun t => RopeOnly s t
          ∧ Answers s x h 1 [x.fallFrame, BitVec.ofNat 32 x.fallSlot.toNat] t))
      ∧ (Request s x 10 0 h ws → s.power.mode = .workshop ∨ (s.power.mode = .raise ∧ s.power.raise = .ropeWait) →
          Does (.imgState x) s (fun t => RopeOnly s t ∧ t.loader = s.loader
            ∧ Answers s x h 1 [BitVec.ofNat 32 (loadNext s), BitVec.ofNat 32 (loadStateByte s).toNat] t))
      ∧ (∀ n, Request s x 9 n h ws → lengthOk 9 n = true → s.power.mode = .workshop ∨ (s.power.mode = .raise ∧ s.power.raise = .ropeWait) →
          let payload := ((ws.take n).drop 1).flatMap bytesOf
          ws.headD 0 = 0 → s.loader.state ≠ .receiving → payload.length < 0x240 → Does (.imgChunk x) s (fun t => LoadBegins payload true t
            ∧ Answers s x h 1 [BitVec.ofNat 32 (loadNext t), BitVec.ofNat 32 (loadStateByte t).toNat] t ∧ t.lay = s.lay)))
  ∧ (∀ (s : State) (x : Exchange) (h : Word) (ws : List Word), Request s x 3 1 h ws → slackMode s.power.mode = true →
      let page := fld (ws.headD 0) 7 0
      let i := fld (ws.headD 0) 15 8
      let n := fld (ws.headD 0) 23 16
      (page ≤ 0x18 → page ∉ [0x06, 0x0A, 0x0C, 0x0D] → 1 ≤ i → 1 ≤ n → i + n ≤ 64 → Does (.ropeRead x) s (fun t => RopeOnly s t
          ∧ Answers s x h 1 ((List.range n).map (fun k => viewReg s .rope (64 * page + i + k))) t))
      ∧ (page > 0x18 ∨ i = 0 ∨ n = 0 ∨ i + n > 64 → Does (.ropeRead x) s (fun t => RopeOnly s t ∧ Answers s x h 8 [] t)))
  ∧ (∀ (s : State) (x : Exchange) (h a v : Word) (ws : List Word), Request s x 4 2 h (a :: v :: ws) → slackMode s.power.mode = true →
      let r := 64 * fld a 7 0 + fld a 15 8
      (∀ row, fld a 7 0 ≤ 0x18 → fld a 15 8 ≤ 63 → r ∈ plainRegs → denied s .rope r = false → regRow r = some row →
          (∀ n, s.light.step = some n → r ≠ Reg.snkCfg n ∧ r ≠ Reg.snkCur n) → Does (.ropeWrite x) s (fun t => Answers s x h 1 [] t
            ∧ (∀ f ∈ row.fields, fieldAfter (lockedMode s.power.mode) f v (getReg s r) (getReg t r))
            ∧ (∀ q, q ≠ r → q ≠ Reg.ropStamp → q ≠ Reg.sysFaultPin → getReg t q = getReg s q) ∧ t.lay = s.lay ∧ t.mem = s.mem))
      ∧ (fld a 7 0 ≤ 0x18 → fld a 15 8 ≤ 63 → denied s .rope r = true → Does (.ropeWrite x) s (fun t => Answers s x h 7 [0] t
            ∧ getF t Reg.sysOwner 15 8 = upTo 255 (getF s Reg.sysOwner 15 8) ∧ t.lay = s.lay ∧ t.mem = s.mem))
      ∧ (fld a 7 0 > 0x18 ∨ fld a 15 8 > 63 → Does (.ropeWrite x) s (fun t => RopeOnly s t ∧ Answers s x h 8 [] t)))
  ∧ (∀ (s : State) (x : Exchange) (h : Word) (ws : List Word) (n : Nat), Request s x 5 n h ws → lengthOk 5 n = true → slackMode s.power.mode = true →
      let a := fld (ws.headD 0) 11 0
      (a + (n - 1) ≤ 4096 → Does (.cells x) s (fun t => Answers s x h 1 [] t ∧ t.rom.cellsAge = 0 ∧ t.lay = s.lay ∧ t.mem.strand = s.mem.strand
          ∧ ∀ k, sget zero t.mem.deck k = if a ≤ k ∧ k < a + (n - 1) then (ws.getD (k - a + 1) 0).setWidth 24 else sget zero s.mem.deck k))
      ∧ (a + (n - 1) > 4096 → Does (.cells x) s (fun t => RopeOnly s t ∧ Answers s x h 8 [] t)))
  ∧ (∀ (s : State) (x : Exchange) (h : Word) (ws : List Word), Request s x 6 1 h ws → slackMode s.power.mode = true →
      let inside := 256 ≤ x.fallSlot.toNat ∧ x.endSlot.toNat < budget s - 256
      (inside → denied s .rope Reg.sysFrame = false → Does (.setFrame x) s (fun t => Answers s x h 1 [] t
          ∧ t.tickPend = s.tickPend.filter (fun e => e.1 != Reg.sysFrame) ++ [(Reg.sysFrame, ws.headD 0 + (frameNo s + 1 - x.fallFrame))]
          ∧ frameNo t = frameNo s ∧ t.lay = s.lay ∧ t.mem = s.mem))
      ∧ (inside → denied s .rope Reg.sysFrame = true → Does (.setFrame x) s (fun t => Answers s x h 7 [0] t ∧ t.tickPend = s.tickPend))
      ∧ (¬inside → Does (.setFrame x) s (fun t => RopeOnly s t ∧ Answers s x h 9 [] t)))
  ∧ (∀ (s : State) (x : Exchange) (h : Word) (ws : List Word), Request s x 8 1 h ws → s.power.mode = .limp → Requests s .rope →
      (fld (ws.headD 0) 3 0 = 3 → limpPersists s 3 = true → Does (.leaveLimp x) s (fun t => Answers s x h 1 [4] t ∧ t.power.mode = .limp
          ∧ t.lay = s.lay ∧ t.mem = s.mem))
      ∧ (fld (ws.headD 0) 3 0 = 3 → limpPersists s 3 = false → StrapsGood s → Does (.leaveLimp x) s (fun t => Restarted s 9 false t
          ∧ t.rope.next = none ∧ getF t Reg.sysModeReq 11 8 = 2)))

/-- R644, R646 to R654, R666: exchanges that execute nothing. A worker that does not hear leaves its state; while a request
executes it answers PENDING; a broken length, a short or malformed frame, a wrong CRC, a retry and a wrong mode are each
answered with their result at the next exchange; and an executed request's reply becomes ready.
Resting on the model's choices in log entries 58 and 59. -/
def Obligations.RopeRequestsRejected : Prop :=
  (∀ (s : State) (x : Exchange) (mk : Exchange → Instr) (op : Nat), (mk, op) ∈ ropeRows →
    (ropeHears s = false → exec (mk x) s = .next s)
    ∧ (∀ r, ropeHears s = true → x.words ≠ [] → s.rope.next = some r → Does (mk x) s (fun t => RopeOnly s t
        ∧ Exchanged s x ⟨r.seq, 2, [], r.rcrc⟩ t ∧ t.rope.next = some r ∧ t.rope.reply = s.rope.reply))
    ∧ (ropeHears s = true → x.extra ≠ 0 → s.rope.next = none → Does (mk x) s (fun t => Rejects s x ⟨byteOf (x.words.headD 0) 1, 3, [], false⟩ t
        ∧ t.rope.lenErr = true ∧ getB t Reg.ropStatus 5 = true ∧ getF t Reg.ropStatus 31 24 = upTo 255 (getF s Reg.ropStatus 31 24)
        ∧ getF t Reg.ropFault 15 0 = (32 * x.words.length + x.extra.toNat) % 65536))
    ∧ (∀ h ws, Heard s x h ws → fld h 31 24 = op →
        let seq := byteOf h 1
        let n := fld h 23 16
        (ws.length < n + b2n (bit h 0) ∨ (bit h 0 = true ∧ getB s Reg.ropCfg 27 = false) → Does (mk x) s (Rejects s x ⟨seq, 5, [], bit h 2⟩))
        ∧ (bit h 0 = true → getB s Reg.ropCfg 27 = true → n < ws.length → ws.getD n 0 ≠ crcWord (h :: ws.take n) → Does (mk x) s (fun t =>
            Rejects s x ⟨seq, 4, [], false⟩ t ∧ getB t Reg.ropStatus 6 = true))
        ∧ (bit h 0 = false → n ≤ ws.length → (fld h 7 3 ≠ 0 ∨ lengthOk op n = false) → Does (mk x) s (Rejects s x ⟨seq, 5, [], bit h 2⟩))
        ∧ (∀ l, bit h 0 = false → n ≤ ws.length → fld h 7 3 = 0 → lengthOk op n = true → bit h 1 = true → s.rope.last = some l → l.seq = seq →
            Does (mk x) s (Rejects s x l))
        ∧ (bit h 0 = false → n ≤ ws.length → fld h 7 3 = 0 → lengthOk op n = true → bit h 1 = false → op ∈ [3, 4, 5, 6] →
            slackMode s.power.mode = false → Does (mk x) s (Rejects s x ⟨seq, 6, [], bit h 2⟩))))
  ∧ (∀ (s : State) (r : Reply), s.rope.next = some r → exec .ropeReplyReady s = .next { s with rope := { s.rope with next := none, reply := r } })
  ∧ (∀ s : State, s.rope.next = none → exec .ropeReplyReady s = .next s)

/-- R635 to R641, R653, R662, R667 to R672: the rope as master. GO sends the transmit buffer's words to the code where the profile
allows it, else it is refused; at its end the received words are stored and the event posted; the buffers are accessed at
INDEX; the ROM manager service sends a failed request again up to three times, then counts the code as absent (R670), and
sends a worker the nudge that cancels its offset (R663); a standby manager takes over, a mode fault gives mastery up, and an
enumeration records what each code answers.
Resting on the model's choices in log entries 53 and 60. -/
def Obligations.RopeMasterCompletes : Prop :=
  (∀ (s : State) (src : Source) (v : Word), Open s src Reg.ropXfer →
      let code := fld v 23 16
      let p := codeProfile s code
      let n := fld v 7 0
      let h := if bit v 29 then putFld (ropWord s false 0) 15 8 (getF s Reg.ropSeq 7 0) else ropWord s false 0
      (1 ≤ n → n ≤ 128 → bit v 28 = false → xferBusy s = false → getB s Reg.ropCfg 31 = true → code ≤ topCode s → bit p 31 = false →
          fld p 23 19 = 31 → (fld p 11 0 + 1) % 32 = 0 → fld p 30 29 ≤ 1 → 32 * n ≤ fld p 11 0 + 1 → 1 + fld h 23 16 + b2n (bit h 0) ≤ n →
          Does (.ropeXferGo src v) s (fun t =>
            let out := h :: (List.range (n - 1)).map (fun i => ropWord s false (i + 1))
            t.rope.wire = s.rope.wire ++ [.xfer (BitVec.ofNat 8 code) false n 32 true (bit v 27) out]
            ∧ getF t Reg.ropSeq 7 0 = (if bit v 29 then (getF s Reg.ropSeq 7 0 + 1) % 256 else getF s Reg.ropSeq 7 0)
            ∧ (s.rope.wire = [] → t.rope.sent = out ∧ t.rope.lastCode = BitVec.ofNat 8 code ∧ t.rope.fallTime = s.clock.time)
            ∧ t.lay = s.lay ∧ t.mem = s.mem))
      ∧ (xferBusy s = true ∨ getB s Reg.ropCfg 31 = false ∨ code > topCode s → Does (.ropeXferGo src v) s (fun t => t.rope = s.rope
          ∧ getB t Reg.ropStatus 9 = true ∧ t.lay = s.lay ∧ t.mem = s.mem)))
  ∧ (∀ (s : State) (rx : List Word) (code : Byte) (n : Nat) (out : List Word), s.rope.wire = [.xfer code false n 32 true false out] → n ≤ 128 →
      Does (.xferDone rx) s (fun t => t.rope.wire = [] ∧ getB t Reg.ropStatus 8 = true ∧ getB t Reg.layEvtPend 17 = true
        ∧ (vget t.events.data 17 0).toNat = code.toNat ∧ (∀ i, sget zero t.rope.rx i = if i < n then rx.getD i 0 else sget zero s.rope.rx i)
        ∧ t.rope.tx = s.rope.tx ∧ t.lay = s.lay ∧ t.mem = s.mem))
  ∧ (∀ (s : State) (rx : List Word) (ch : Nat) (code : Byte) (cells : List Cell), s.rope.wire = [.feed ch code cells] → ch < 8 →
      Does (.xferDone rx) s (fun t => t.rope.wire = [] ∧ (chan t ch).sending = false ∧ t.rope.rx = s.rope.rx ∧ t.lay = s.lay ∧ t.mem = s.mem))
  ∧ (∀ (s : State) (rx : List Word) (a p : SvcAsk) (out : List Word), s.rope.wire = [.service a out] →
      s.rope.svc.asks.find? (·.code == a.code) = some p →
      (svcBad s p out.length rx = true → p.tries < 3 → Does (.xferDone rx) s (fun t =>
          t.rope.svc.todo = (a.code, .again { p with tries := p.tries + 1 }) :: s.rope.svc.todo ∧ t.lay = s.lay ∧ t.mem = s.mem))
      ∧ (svcBad s p out.length rx = true → p.tries ≥ 3 → Does (.xferDone rx) s (fun t =>
          getB t (Reg.ropPresent (a.code.toNat / 32)) (a.code.toNat % 32) = false
          ∧ (∀ x ∈ t.rope.svc.todo, x.1 ≠ a.code) ∧ t.lay = s.lay ∧ t.mem = s.mem))
      ∧ (svcBad s p out.length rx = false → fld (p.words.headD 0) 31 24 = 7 → fld (rx.headD 0) 23 16 = 1 → 2 ≤ fld (rx.headD 0) 31 24 →
          Does (.xferDone rx) s (fun t => ∃ d : Int, -(budget s : Int) ≤ 2 * d ∧ 2 * d < budget s
            ∧ (d - ((p.slot : Int) - fld (rx.getD 2 0) 13 0)) % (budget s : Int) = 0
            ∧ t.rope.svc.todo = (if d = 0 then [] else [(a.code, .nudge (-d))]) ++ s.rope.svc.todo ∧ t.lay = s.lay ∧ t.mem = s.mem)))
  ∧ (∀ (s : State) (rx : List Word), s.rope.wire = [] → exec (.xferDone rx) s = .next s)
  ∧ (∀ (s : State) (src : Source) (v : Word), Open s src Reg.ropBufdata →
      let i := getF s Reg.ropBufptr 6 0
      Does (.ropBufdataAccess src (some v)) s (fun t => getF t Reg.ropBufptr 6 0 = (i + 1) % 128 ∧ getB t Reg.ropBufptr 8 = getB s Reg.ropBufptr 8
        ∧ (∀ rx k, ropWord t rx k = if rx = getB s Reg.ropBufptr 8 ∧ k = i then v else ropWord s rx k) ∧ t.lay = s.lay ∧ t.mem = s.mem))
  ∧ (∀ (s : State) (src : Source), slackMode s.power.mode = true → s.power.factory = false → Does (.ropBufdataAccess src none) s (fun t =>
      getF t Reg.ropBufptr 6 0 = (getF s Reg.ropBufptr 6 0 + 1) % 128 ∧ t = { s with regs := t.regs } ∧ ∀ r, r ≠ Reg.ropBufptr → getReg t r = getReg s r))
  ∧ (∀ s : State, pinModes s.power.mode = true → getB s Reg.ropCfg 30 = true → getF s Reg.ropCfg 29 28 = 0 → getB s Reg.ropCfg 31 = false →
      Does (.takeover none) s (fun t => getB t Reg.ropCfg 31 = true ∧ getB t Reg.ropStatus 13 = true ∧ (s.clk.primary = 4 → SlewsTo s 1 t)
        ∧ (s.clk.primary ≠ 4 → t.clk = s.clk) ∧ t.lay = s.lay ∧ t.mem = s.mem ∧ t.power = s.power))
  ∧ (∀ s : State, (getB s Reg.ropCfg 30 = false ∨ getB s Reg.ropCfg 31 = true) → exec (.takeover none) s = .next s)
  ∧ (∀ (s : State) (src : Source) (v : Word), Open s src Reg.ropCfg → getB s Reg.ropCfg 31 = false → Does (.takeover (some ⟨src, v⟩)) s (fun t =>
      getB t Reg.ropCfg 31 = true ∧ getB t Reg.ropCfg 30 = bit v 30 ∧ getB t Reg.ropStatus 13 = true ∧ (s.clk.primary = 4 → SlewsTo s 1 t)
      ∧ t.lay = s.lay ∧ t.mem = s.mem ∧ t.power = s.power))
  ∧ (∀ s : State, getB s Reg.ropCfg 31 = true → pinModes s.power.mode = true → Does .ropeModeFault s (fun t => getB t Reg.ropCfg 31 = false
      ∧ getB t Reg.ropCfg 30 = false ∧ getB t Reg.ropStatus 7 = true ∧ t.rope.wire = [] ∧ getF t Reg.ropFault 31 24 = 0x11
      ∧ getF t Reg.ropFault 23 16 = s.rope.lastCode.toNat ∧ t.lay = s.lay ∧ t.mem = s.mem ∧ t.power = s.power))
  ∧ (∀ s : State, (getB s Reg.ropCfg 31 = false ∨ pinModes s.power.mode = false) → exec .ropeModeFault s = .next s)
  ∧ (∀ (s : State) (f : Found), getB s Reg.ropCfg 31 = true → getB s Reg.ropCfg 3 = true → pinModes s.power.mode = true → f.code ≠ 0 →
      f.code.toNat ≤ getF s Reg.ropCfg 15 8 → Does (.enumeration [f]) s (fun t =>
        getB t (Reg.ropPresent (f.code.toNat / 32)) (f.code.toNat % 32) = f.reply.isSome
        ∧ (∀ r, f.reply = some r → r.1 ≠ f.code → getB t Reg.ropStatus 12 = true ∧ getF t Reg.ropFault 23 16 = f.code.toNat)
        ∧ (∀ k n, k < 8 → n < 32 → ¬(k = f.code.toNat / 32 ∧ n = f.code.toNat % 32) →
            getB t (Reg.ropPresent k) n = getB s (Reg.ropPresent k) n) ∧ t.lay = s.lay ∧ t.mem = s.mem))
  ∧ (∀ (s : State) (fs : List Found), (getB s Reg.ropCfg 31 = false ∨ getB s Reg.ropCfg 3 = false) → exec (.enumeration fs) s = .next s)

/-! ### The Reel engine and the X-port -/

/-- R602, R603, R606, R607, R608, R611, R614, R616, R622, Table 12.11: Reel channels. EN written 1 starts a legal configuration and
ends any other in error 0xFF with the event; EN written 0 stops the channel, one that transfers at its next burst boundary; a channel's other fields are locked while EN is
1; a filled page stands in its ring frame and is ready; a copy from Strand RAM to Deck RAM ends with every cell moved.
Resting on the model's choices in log entries 40 and 57. -/
def Obligations.ReelChannelsComplete : Prop :=
  (∀ (s : State) (src : Source) (ch : Fin 8) (v : Word), Open s src (Reg.rel ch.val 0) →
      (getB s (Reg.rel ch.val 0) 31 = false → (chan s ch.val).st ≠ .running → (chan s ch.val).leave = false →
        Does (.reelChannelEnable src ch v) s (fun t =>
          getB t (Reg.rel ch.val 0) 31 = true ∧ getF t (Reg.rel ch.val 0) 30 29 = fld v 30 29 ∧ getF t (Reg.rel ch.val 0) 18 11 = fld v 18 11
          ∧ (fld v 28 26 ≤ 3 → getF t (Reg.rel ch.val 0) 28 26 = fld v 28 26) ∧ t.lay = s.lay ∧ t.mem = s.mem
          ∧ (chLegal t ch.val = true → (chan t ch.val).st = .running ∧ (chan t ch.val).err = 0 ∧ (chan t ch.val).units = 0
              ∧ (chan t ch.val).pos = (if (chan s ch.val).st = .faulted then (chan s ch.val).pos else 0))
          ∧ (chLegal t ch.val = false → (chan t ch.val).st = .error ∧ (chan t ch.val).err = 0xFF ∧ getB t Reg.layEvtPend 18 = true)))
      ∧ (getB s (Reg.rel ch.val 0) 31 = true → (chan s ch.val).st = .running → Does (.reelChannelEnable src ch v) s (ButPin s))
      ∧ (getB s (Reg.rel ch.val 0) 31 = true → Does (.reelChannelStop src ch v) s (fun t => getB t (Reg.rel ch.val 0) 31 = false
          ∧ getF t (Reg.rel ch.val 0) 30 0 = getF s (Reg.rel ch.val 0) 30 0
          ∧ ((chan s ch.val).st = .running ∧ s.xp.holder = some ch.val →
              chan t ch.val = { chan s ch.val with leave := true } ∧ t.xp = s.xp)
          ∧ ((chan s ch.val).st ≠ .running ∨ s.xp.holder ≠ some ch.val → (chan t ch.val).st = .idle ∧ (chan t ch.val).fill = none
              ∧ t.xp.holder ≠ some ch.val)
          ∧ t.lay = s.lay ∧ t.mem = s.mem ∧ ∀ k : Fin 8, k ≠ ch → t.reel[k] = s.reel[k]))
      ∧ (getB s (Reg.rel ch.val 0) 31 = false → Does (.reelChannelStop src ch v) s (fun t => getB t (Reg.rel ch.val 0) 31 = false
          ∧ getF t (Reg.rel ch.val 0) 30 29 = fld v 30 29 ∧ t.reel = s.reel ∧ t.lay = s.lay ∧ t.mem = s.mem)))
  ∧ (∀ (s : State) (src : Source) (ch : Fin 8) (k : BitVec 6) (v : Word), 1 ≤ k.toNat → k.toNat ≤ 4 → getB s (Reg.rel ch.val 0) 31 = true →
      ∀ i : BitVec 6, 64 * 0x08 + i.toNat = Reg.rel ch.val k.toNat → Open s src (Reg.rel ch.val k.toNat) →
      Does (.registerWrite src 0x08 i v) s (ButPin s))
  ∧ (∀ (s : State) (ch : Fin 8) (p : Nat), (chan s ch.val).fill = some p → s.xp.holder = some ch.val → (chan s ch.val).leave = true →
      Does (.pageReady ch) s (fun t => (chan t ch.val).fill = none ∧ (chan t ch.val).leave = false ∧ t.xp.holder = none
        ∧ (chan t ch.val).ready = (chan s ch.val).ready
        ∧ (chan t ch.val).st = (if getB s (Reg.rel ch.val 0) 31 then (chan s ch.val).st else .idle)
        ∧ (∀ a, a / 4096 ≠ (chF s ch.val 4 4 0 + p % chF s ch.val 4 11 8) % 32 → sget zero t.mem.strand a = sget zero s.mem.strand a)
        ∧ t.mem.deck = s.mem.deck ∧ t.regs = s.regs ∧ t.lay = s.lay))
  ∧ (∀ (s : State) (ch : Fin 8) (p : Nat), (chan s ch.val).fill = some p → s.xp.holder = some ch.val → (chan s ch.val).leave = false →
      let pack := chF s ch.val 0 22 21
      let frame := (chF s ch.val 4 4 0 + p % chF s ch.val 4 11 8) % 32
      Does (.pageReady ch) s (fun t => (chan t ch.val).ready = (chan s ch.val).ready ++ [p] ∧ (chan t ch.val).fill = none ∧ t.xp.holder = none
        ∧ (∀ k, k < 4096 → sget zero t.mem.strand (frame * 4096 + k)
            = extCell s (chF s ch.val 0 28 26 - 2) (chF s ch.val 1 31 0 + p * 4096 * pack + k * pack) pack)
        ∧ (∀ a, a / 4096 ≠ frame → sget zero t.mem.strand a = sget zero s.mem.strand a)
        ∧ t.mem.deck = s.mem.deck ∧ t.regs = s.regs ∧ t.lay = s.lay))
  ∧ (∀ (s : State) (ch : Fin 8), ((chan s ch.val).fill = none ∨ s.xp.holder ≠ some ch.val) → exec (.pageReady ch) s = .next s)
  ∧ (∀ (s : State) (ch : Fin 8), (chan s ch.val).st = .running → (chan s ch.val).leave = false → chKind s ch.val = 1 → chF s ch.val 0 28 26 = 0 → chF s ch.val 0 25 23 = 1 →
      chF s ch.val 1 31 0 + chLen s ch.val ≤ 131072 → chF s ch.val 2 31 0 + chLen s ch.val ≤ 4096 → s.mem.ecc = [] →
      let n := (chan s ch.val).units
      let from' := chF s ch.val 1 31 0
      let to' := chF s ch.val 2 31 0
      Does (.channelDone ch) s (fun t => (chan t ch.val).st = .done ∧ (chan t ch.val).err = 0 ∧ getB t Reg.layEvtPend 18 = true
        ∧ t.xp.holder ≠ some ch.val ∧ t.mem.strand = s.mem.strand ∧ t.lay = s.lay
        ∧ ∀ a, sget zero t.mem.deck a = if to' + n ≤ a ∧ a < to' + chLen s ch.val then strandCell s (from' + (a - to')) else sget zero s.mem.deck a))
  ∧ (∀ (s : State) (ch : Fin 8), ((chan s ch.val).st ≠ .running ∨ chKind s ch.val = 0 ∨ chKind s ch.val = 2) → exec (.channelDone ch) s = .next s)

/-- R465 to R468, R575, R577, R582, R584 to R587, R594, R597 to R599: leases, recovery, settings and direct transactions. A free lease
goes to the reel stream that wants it before a direct transaction, which ends unmade where it cannot be made; a copy releases its
lease after each 4096 units; a revoked one faults its channel, is flagged and counted, and
starts the reset of one or both devices; recovery of device 0 ends when its SFDP read agrees, until when it gets no lease; settings wait for an idle port; a direct transaction fills XP_DBUF, marks
its device busy where asked, and ends with DONE, or with ERR where it is abandoned.
Resting on the model's choices in log entries 13 and 56. -/
def Obligations.XportCompletes : Prop :=
  (∀ s : State, leaseOpen s = true →
    (∀ ch p, ch < 8 → chKind s ch = 0 → chWants s ch = true → (∀ k, k < 8 → k ≠ ch → chKind s k = 0 → chWants s k = false) →
        nextFill s ch = some p → fillAbsent s ch p = false → Does .leaseGrant s (fun t => t.xp.holder = some ch ∧ t.xp.since = s.clock.time
          ∧ (chan t ch).fill = some p ∧ t.lay = s.lay ∧ t.mem = s.mem ∧ t.regs = s.regs))
    ∧ ((∀ k, k < 8 → chWants s k = false) → s.xp.direct = true → s.xp.blocked = false →
        (directAbsent s (getReg s Reg.xpDcmd) = false →
          exec .leaseGrant s = .next { s with xp := { s.xp with holder := some 8, since := s.clock.time } })
        ∧ (directAbsent s (getReg s Reg.xpDcmd) = true → exec .leaseGrant s = .next { s with xp := { s.xp with direct := false } }))
    ∧ ((∀ k, k < 8 → chWants s k = false) → s.xp.direct = false → exec .leaseGrant s = .next s))
  ∧ (∀ s : State, leaseOpen s = false → (s.xp.holder = none ∨ ∃ h, s.xp.holder = some h ∧ 8 ≤ h) → exec .leaseGrant s = .next s)
  ∧ (∀ (s : State) (h : Nat), s.xp.holder = some h → h < 8 → (chan s h).leave = false → chKind s h ≠ 0 →
      (chLen s h - (chan s h).units ≤ 4096 → exec .leaseGrant s = .next s)
      ∧ (4096 < chLen s h - (chan s h).units →
          let u := leaseDrop (moveUnits s h 4096)
          exec .leaseGrant s = .next (if leaseOpen u then leaseGive u else u)))
  ∧ (∀ (s : State) (addr : BitVec 24) (h : Nat), s.xp.holder = some h → h ≤ 8 → Does (.xpLeaseRevoked addr) s (fun t =>
      t.xp.holder = none ∧ t.xp.recovering = true ∧ getB t Reg.cltLease 26 = true
      ∧ getF t Reg.cltLease 23 16 = upTo 255 (getF s Reg.cltLease 23 16) ∧ t.lay = s.lay
      ∧ t.xp.resetAt = s.clock.time ∧ (getB s Reg.xpResetCfg 31 = true → nbit t.xp.resetDevs 0 = true ∧ nbit t.xp.resetDevs 1 = true)
      ∧ (getB s Reg.xpResetCfg 31 = false → nbit t.xp.resetDevs (leaseDev s h) = true)
      ∧ (h < 8 → (chan t h).st = .faulted ∧ (chan t h).err = 0x10 ∧ getB t (Reg.rel h 0) 31 = false)
      ∧ (h = 8 → t.xp.direct = false ∧ getB t Reg.xpDcmd 14 = true ∧ getB t Reg.xpDcmd 13 = true ∧ t.reel = s.reel)))
  ∧ (∀ (s : State) (addr : BitVec 24), s.xp.holder = none → exec (.xpLeaseRevoked addr) s = .next s)
  ∧ (∀ (s : State) (f : Option Sfdp), s.xp.recovering = true → nbit s.xp.resetDevs 0 = false →
      exec (.xpRecovery f) s = .next { s with xp := { s.xp with recovering := false, resetDevs := 0 } })
  ∧ (∀ s : State, s.xp.recovering = true → nbit s.xp.resetDevs 0 = true →
      (∀ f, s.xp.sfdp = none ∨ s.xp.sfdp = some f → exec (.xpRecovery (some f)) s = .next { s with xp := { s.xp with
        recovering := false, resetDevs := 0, blocked := false, entrySent := s.xp.entry } })
      ∧ (∀ o, (o = none ∨ ∃ f g, o = some f ∧ s.xp.sfdp = some g ∧ f ≠ g) →
        Does (.xpRecovery o) s (fun t => t.xp = { s.xp with blocked := true } ∧ getB t Reg.xpStatus 11 = true
          ∧ (s.xp.blocked = true → t.cleat = s.cleat) ∧ t.lay = s.lay ∧ t.mem = s.mem
          ∧ (s.xp.blocked = false → getB s Reg.cltLogHead 22 = false → s.cleat.queue.length < 4 → t.cleat.queue = s.cleat.queue
              ++ [⟨.xpTimeout, .none, false, false, false, s.clock.slot, 0, frameNo s, 0⟩]))))
  ∧ (∀ (s : State) (f : Option Sfdp), s.xp.recovering = false → exec (.xpRecovery f) s = .next s)
  ∧ (∀ (s : State) (r : Nat) (w : Word), s.xp.cfgPend = [(r, w)] → xpIdle s = true → Does .xpCfgApply s (fun t => getReg t r = w
      ∧ t.xp.cfgPend = [] ∧ (∀ q, q ≠ r → getReg t q = getReg s q) ∧ t.lay = s.lay ∧ t.mem = s.mem))
  ∧ (∀ s : State, xpIdle s = false → exec .xpCfgApply s = .next s)
  ∧ (∀ (s : State) (src : Source) (v : Word), Open s src Reg.xpDcmd →
      (s.xp.direct = true → Does (.directTransaction src v) s (ButPin s))
      ∧ (s.xp.direct = false → Does (.directTransaction src v) s (fun t => getF t Reg.xpDcmd 31 24 = fld v 31 24 ∧ getF t Reg.xpDcmd 23 16 = fld v 23 16
          ∧ t.xp.direct = true ∧ t.lay = s.lay ∧ t.mem = s.mem ∧ ∀ r, r ≠ Reg.xpDcmd → r ≠ Reg.sysFaultPin → getReg t r = getReg s r)))
  ∧ (∀ (s : State) (data : Vector Byte 32), s.xp.direct = true → s.xp.holder = some 8 → Does (.directTransactionEnd data) s (fun t =>
      t.xp.direct = false ∧ t.xp.holder = none ∧ getB t Reg.xpDcmd 14 = true ∧ t.lay = s.lay ∧ t.mem.deck = s.mem.deck
      ∧ (getB s Reg.xpDcmd 16 = true → getB t Reg.xpStatus (8 + getF s Reg.xpDcmd 21 21) = true)
      ∧ (getB s Reg.xpDcmd 20 = false → t.mem = s.mem ∧ (getF s Reg.xpDcmd 5 0 ≤ 32 → ∀ i : Fin 32, i.val < getF s Reg.xpDcmd 5 0 →
          getF t (Reg.xpDbuf (i.val / 4)) (8 * (i.val % 4) + 7) (8 * (i.val % 4)) = data[i].toNat))))
  ∧ (∀ s : State, s.xp.direct = true → s.xp.holder = some 8 → Does .xpTimeout s (fun t => t.xp.direct = false ∧ t.xp.holder = none
      ∧ getB t Reg.xpStatus 10 = true ∧ getB t Reg.xpDcmd 14 = true ∧ getB t Reg.xpDcmd 13 = true ∧ t.lay = s.lay ∧ t.mem.deck = s.mem.deck))
  ∧ (∀ (s : State) (data : Vector Byte 32), (s.xp.direct = false ∨ s.xp.holder ≠ some 8) → exec .xpTimeout s = .next s
      ∧ exec (.directTransactionEnd data) s = .next s)

/-! ### Whipping units and Tally monitors -/

namespace Sys2Proof.Machine.Claim

/-- The bytes that a write of a feed register feeds (R841, R842). -/
def fedBytes (reg : FeedReg) (v : Word) : List Byte :=
  match reg with
  | .feed8 => [byteOf v 0]
  | .feed16 => [byteOf v 0, byteOf v 1]
  | .feed32 => bytesOf v

/-- Unit u has compared (R849, R850): DONE is set, and MATCH tells whether no byte was dropped and RESULT equals EXPECT in
the width; a mismatch is flagged and counted. -/
def Compared (s : State) (u : Nat) (t : State) : Prop :=
  let w := whipUnit s u
  let same := !w.poison && decide ((whipUnit t u).result.toNat % 2 ^ w.set.width = (getReg s (Reg.whp u 8)).toNat % 2 ^ w.set.width)
  (whipUnit t u).matched = same ∧ (whipUnit t u).check = none ∧ (whipUnit t u).queue = [] ∧ getB t (Reg.whp u 9) 0 = true
  ∧ (same = false → getB t (Reg.whp u 9) 2 = true ∧ getF t (Reg.whp u 9) 23 16 = upTo 255 (getF s (Reg.whp u 9) 23 16))
  ∧ (same = true → getF t (Reg.whp u 9) 23 16 = getF s (Reg.whp u 9) 23 16) ∧ t.lay = s.lay ∧ t.mem = s.mem

end Sys2Proof.Machine.Claim

/-- R839 to R850, R854: Whipping units. START takes the settings and the initial value; fed bytes queue up to 8, and a feed beyond
them is dropped whole and poisons the unit; each byte takes one step of the CRC; CHECK compares RESULT with EXPECT, after
the queued bytes. An owned unit ignores writes. R844: the step of the CRC. Reflection reverses the bits of the width; a byte takes eight steps, each of which shifts the
register left and adds the polynomial where the bit shifted out differs from the byte's next bit, most significant first.
Resting on the model's choice in log entry 50. -/
def Obligations.WhippingUnitsAndCrcSteps : Prop :=
  ((∀ (s : State) (src : Source) (u : Fin 4) (v : Word), Open s src (Reg.whp u.val 0) → whipOwner s u.val = 0 →
        (bit v 1 = false → 1 ≤ fld v 21 16 → fld v 21 16 ≤ 32 → Does (.whipStart src u v) s (fun t =>
            (whipUnit t u.val).set = ⟨fld v 21 16, getReg s (Reg.whp u.val 1), getReg s (Reg.whp u.val 2), getReg s (Reg.whp u.val 3), bit v 8, bit v 9⟩
            ∧ (whipUnit t u.val).crc.toNat = (getReg s (Reg.whp u.val 2)).toNat % 2 ^ fld v 21 16
            ∧ (whipUnit t u.val).queue = [] ∧ (whipUnit t u.val).poison = false ∧ (whipUnit t u.val).check = none
            ∧ (∀ k : Fin 4, k ≠ u → t.whip[k] = s.whip[k]) ∧ t.lay = s.lay ∧ t.mem = s.mem))
        ∧ (bit v 0 = false → (whipUnit s u.val).queue = [] → Does (.whipCheck src u v) s (Compared s u.val))
        ∧ (bit v 0 = false → (whipUnit s u.val).queue ≠ [] → Does (.whipCheck src u v) s (fun t =>
            whipUnit t u.val = { whipUnit s u.val with check := some (whipUnit s u.val).queue.length } ∧ t.lay = s.lay ∧ t.mem = s.mem)))
    ∧ (∀ (s : State) (src : Source) (u : Fin 4) (v : Word), Open s src (Reg.whp u.val 0) → whipOwner s u.val ≠ 0 →
        ∀ c ∈ [Instr.whipStart src u v, .whipCheck src u v], Does c s (ButPin s))
    ∧ (∀ (s : State) (src : Source) (u : Fin 4) (reg : FeedReg) (v : Word), reaches s src (Reg.whp u.val 4) = true → getF s Reg.sysOwner 3 0 = 0 → whipOwner s u.val = 0 →
        ((whipUnit s u.val).queue.length + (fedBytes reg v).length ≤ 8 → Does (.whipFeed src u reg v) s (fun t =>
            (whipUnit t u.val).queue = (whipUnit s u.val).queue ++ fedBytes reg v ∧ (whipUnit t u.val).crc = (whipUnit s u.val).crc
            ∧ (whipUnit t u.val).poison = (whipUnit s u.val).poison ∧ t.lay = s.lay ∧ t.mem = s.mem))
        ∧ ((whipUnit s u.val).queue.length + (fedBytes reg v).length > 8 → Does (.whipFeed src u reg v) s (fun t =>
            (whipUnit t u.val).queue = (whipUnit s u.val).queue ∧ (whipUnit t u.val).poison = true ∧ getB t (Reg.whp u.val 9) 4 = true
            ∧ t.lay = s.lay ∧ t.mem = s.mem)))
    ∧ (∀ (s : State) (u : Fin 4), (∀ b rest, (whipUnit s u.val).queue = b :: rest → (whipUnit s u.val).check ≠ some 1 → Does (.whipByte u) s (fun t =>
            let w := whipUnit s u.val
            let crc := crcByte w.set.width w.set.poly.toNat w.set.refin w.crc.toNat b
            whipUnit t u.val = { w with crc := BitVec.ofNat 32 crc, result := BitVec.ofNat 32 (crcResult w.set crc), queue := rest, check := w.check.map (· - 1) }
            ∧ t = { s with whip := t.whip } ∧ (∀ k : Fin 4, k ≠ u → t.whip[k] = s.whip[k])))
        ∧ ((whipUnit s u.val).queue = [] → exec (.whipByte u) s = .next s))
    ∧ (∀ (s : State) (u : Fin 4), (whipUnit s u.val).check = some (whipUnit s u.val).queue.length → (whipUnit s u.val).queue ≠ [] →
        Does (.whipCompare u) s (Compared s u.val))
    ∧ (∀ (s : State) (u : Fin 4), (whipUnit s u.val).check = none → exec (.whipCompare u) s = .next s))
  ∧ ((∀ w v i, i < w → nbit (reflect w v) i = nbit v (w - 1 - i)) ∧ (∀ w v, reflect w v < 2 ^ w)
    ∧ (∀ w poly crc b, 1 ≤ w → crc < 2 ^ w → ∀ i, i < w → nbit (crcStep w poly crc b) i =
        (((if i = 0 then false else nbit crc (i - 1)) ^^ (nbit poly i && (nbit crc (w - 1) ^^ b)))))
    ∧ (∀ w poly refin crc (x : Byte), crcByte w poly refin crc x =
        ((List.range 8).map (fun i => if refin then x.getLsbD i else x.getLsbD (7 - i))).foldl (crcStep w poly) crc))

/-- R859 to R867, R896: Tally monitors. A write of MON_n_SRC takes its legal fields, and CLEAR empties the monitor; a counted sample
updates minimum, maximum, count and its bin, and a full bin first halves them all.
Resting on the model's choice in log entry 51. -/
def Obligations.TallyMonitorsComplete : Prop :=
  (∀ (s : State) (src : Source) (n : Fin 8) (v : Word), Open s src (Reg.mon n.val 0) → fld v 29 26 ≤ 9 → fld v 25 21 ≤ 23 →
      argLegal (fld v 29 26) (fld v 7 0) = true → Does (.monSrcWrite src n v) s (fun t => getB t (Reg.mon n.val 0) 31 = bit v 31
        ∧ getF t (Reg.mon n.val 0) 29 0 = fld v 29 0 ∧ (bit v 30 = false → t.tally = s.tally)
        ∧ (bit v 30 = true → t.tally.mons[n] = ⟨0x7FFFFF, 0x800000, 0, 0, Vector.replicate 16 0⟩ ∧ (∀ k : Fin 8, k ≠ n → t.tally.mons[k] = s.tally.mons[k])
            ∧ t.tally.due = s.tally.due.filter (fun x => x.unit != n.val)) ∧ t.lay = s.lay ∧ t.mem = s.mem))
  ∧ (∀ (s : State) (x : Sample) (n : Fin 8), s.tally.due = [x] → x.unit = n.val → Does .monSample s (fun t =>
      let m := s.tally.mons[n]
      let m' := t.tally.mons[n]
      let i := (min (max (x.v.toInt / 2 ^ x.shift - x.base) 0) 15).toNat
      t = { s with tally := t.tally } ∧ t.tally.due = [] ∧ (∀ k : Fin 8, k ≠ n → t.tally.mons[k] = s.tally.mons[k])
      ∧ m'.min.toInt = min m.min.toInt x.v.toInt ∧ m'.max.toInt = max m.max.toInt x.v.toInt
      ∧ m'.count.toNat = upTo (2 ^ 32 - 1) m.count.toNat
      ∧ ((vget m.bins i 0).toNat < 65535 → m'.halves = m.halves ∧ ∀ k, k < 16 → (vget m'.bins k 0).toNat = (vget m.bins k 0).toNat + (if k = i then 1 else 0))
      ∧ ((vget m.bins i 0).toNat = 65535 → m'.halves.toNat = upTo 255 m.halves.toNat ∧ ∀ k, k < 16 →
          (vget m'.bins k 0).toNat = (vget m.bins k 0).toNat / 2 + (if k = i then 1 else 0))))
  ∧ (∀ s : State, s.tally.due = [] → exec .monSample s = .next s)

/-! ### Sinks, temperatures and diagnostics -/

/-- R92 to R95, R112, R817 to R829: what is measured at the sinks. A temperature gives the derating factor, whose start is logged; the
reference resistor gives full scale; a diagnostics step of the next enabled sink takes a sample, whose verdict counts when
it comes twice; FS inputs are taken in every mode but OFF.
Resting on the model's choices in log entries 72 and 78. -/
def Obligations.LightEventsComplete : Prop :=
  (∀ (s : State) (m : Thermal), s.power.factory = false → slackMode s.power.mode = true → getB s (Reg.snkNtc 0) 31 = false →
      getB s (Reg.snkNtc 1) 31 = false → Does (.thermalMeasure m) s (fun t => t.light.tj = m.tj ∧ t.light.measured = true
        ∧ t.light.fNext = min 256 (dieFactor m.tj (getF s Reg.snkDerate 15 8)) ∧ t.light.f = s.light.f ∧ t.light.ntcBad0 = false
        ∧ t.light.ntc0 = m.ntc0 ∧ t.light.ntc1 = m.ntc1 ∧ t.power.hotFs = (s.power.hotFs && decide (m.tj ≥ 1500))
        ∧ (s.light.fNext = 256 → t.light.fNext < 256 → getB t Reg.sysEvents 5 = true) ∧ t.lay = s.lay ∧ t.mem = s.mem))
  ∧ (∀ (tj : Int) (start : Nat), 100 ≤ start → start ≤ 145 → let f := (dieFactor tj start : Int)
      (tj ≤ 10 * start → f = 256) ∧ (tj ≥ 1500 → f = 128) ∧ (10 * start < tj → tj < 1500 →
        let exact := 256 * (1500 - 10 * (start : Int)) - 128 * (tj - 10 * start)
        2 * f * (1500 - 10 * start) ≤ 2 * exact + (1500 - 10 * start) ∧ 2 * exact < 2 * f * (1500 - 10 * start) + (1500 - 10 * start)))
  ∧ (∀ (s : State) (m : Thermal), (s.power.mode = .off ∨ s.power.factory = true) → exec (.thermalMeasure m) s = .next s
      ∧ ∀ o, exec (.irefCheck o) s = .next s)
  ∧ (∀ (s : State) (o : Option Nat), s.power.mode ≠ .off → s.power.factory = false → Does (.irefCheck o) s (fun t =>
      (o = none → t.light.irefHigh = true ∧ t.light.irefLow = false ∧ t.light.ifs = 2000 ∧ getB t Reg.snkIref 29 = true)
      ∧ (∀ r, o = some r → r > 130000 → t.light.irefHigh = true ∧ t.light.ifs = 2000 ∧ getB t Reg.snkIref 29 = true)
      ∧ (∀ r, o = some r → 0 < r → r < 15000 → t.light.irefLow = true ∧ t.light.irefHigh = false ∧ t.light.ifs = 7500
          ∧ getB t Reg.snkIref 29 = true)
      ∧ (∀ r, o = some r → 15000 ≤ r → r ≤ 130000 → t.light.irefLow = false ∧ t.light.irefHigh = false ∧ t.regs = s.regs
          ∧ 2 * t.light.ifs * r ≤ 240000000 + r ∧ 240000000 < 2 * t.light.ifs * r + r)
      ∧ t.lay = s.lay ∧ t.mem = s.mem))
  ∧ (∀ (s : State) (n : Nat), sweepRuns s = true → s.light.step = none → s.light.gapLeft = 0 → diagNext s = some n → n < 24 →
      let l := vget s.light.latch n ⟨255, 0, false, false, 256⟩
      (l.duty ≥ 512 → l.code ≠ 0 → exec .diagStepBegin s = .next { s with light := { s.light with lastCh := n, step := some n, sampled := false, lasted := 0 } })
      ∧ (l.duty < 512 ∨ l.code = 0 → NoSinkWrites s → Does .diagStepBegin s (fun t => t.light.step = none ∧ t.light.lastCh = n
          ∧ (vget t.light.diag n ⟨0, 0, false, .good⟩).noMeas = true ∧ t.regs = s.regs ∧ t.lay = s.lay ∧ t.mem = s.mem)))
  ∧ (∀ s : State, (sweepRuns s = false ∨ s.light.step ≠ none ∨ s.light.gapLeft ≠ 0) → exec .diagStepBegin s = .next s)
  ∧ (∀ (s : State) (n : Nat) (x : BitVec 12), s.light.step = some n → n < 24 → s.light.sampled = false →
      let d := vget s.light.diag n ⟨0, 0, false, .good⟩
      let limit := d.ref + (14 * getF s (Reg.snkCfg n) 15 8 + 5) / 10
      let low := getF s Reg.snkGlobal 7 0
      Does (.diagSample (some x)) s (fun t =>
        let d' := vget t.light.diag n ⟨0, 0, false, .good⟩
        t.light.sampled = true ∧ d'.last = x.toNat ∧ d'.noMeas = false ∧ t.lay = s.lay ∧ t.mem = s.mem
        ∧ (x.toNat < low → d'.verdict = .opened ∧ d'.ref = d.ref ∧ (d.verdict = .opened → getB t (Reg.snkDiag n) 31 = true))
        ∧ (x.toNat ≥ low → d.ref ≠ 0 → x.toNat > limit → d'.verdict = .shorted ∧ d'.ref = d.ref ∧ (d.verdict = .shorted → getB t (Reg.snkDiag n) 30 = true))
        ∧ (x.toNat ≥ low → d.ref = 0 → d'.verdict = .good ∧ d'.ref = x.toNat)
        ∧ (x.toNat ≥ low → x.toNat ≤ limit → d'.verdict = .good ∧ t.regs = s.regs)))
  ∧ (∀ (s : State) (v : Option (BitVec 12)), (s.light.step = none ∨ v = none ∨ s.light.sampled = true) → exec (.diagSample v) s = .next s)
  ∧ (∀ (s : State) (l : BitVec 3), (s.power.mode ≠ .off → exec (.fsInputChange l) s = .next { s with pins := { s.pins with fs := l } })
      ∧ (s.power.mode = .off → exec (.fsInputChange l) s = .next s))

/-! ### Audio -/

namespace Sys2Proof.Machine.Claim

/-- Converter out has become a, in state t; leaving LOCKED sets its LOST flag (R786, R802). -/
def AsrBecomes (s : State) (out : Bool) (a : Asr) (t : State) : Prop :=
  t.audio = (if out then { s.audio with asrOut := a } else { s.audio with asrIn := a })
  ∧ ((asrOf s out).st = .locked → a.st ≠ .locked → getB t Reg.asrLock (if out then 13 else 12) = true)
  ∧ ((asrOf s out).st ≠ .locked → t.regs = s.regs) ∧ t.lay = s.lay ∧ t.mem = s.mem ∧ t.power = s.power

end Sys2Proof.Machine.Claim

/-- R477, R764, R783, R786 to R788, R796 to R798, R802: audio. A converter in use acquires a ratio within its limits, locks, and falls back
when its clock or phase is lost, which is flagged; an underrun or overrun of a locked one is flagged, counted and logged. A
gain scales a sample with rounding and saturation, MUTE sends zero, and a 16-bit slot carries the rounded upper bits.
Resting on the model's choice in log entry 65. -/
def Obligations.AudioEventsComplete : Prop :=
  (∀ (s : State) (out : Bool) (r : Word), asrUsed s out = true →
      let a := asrOf s out
      let legal := 22369621 ≤ r.toNat ∧ r.toNat ≤ 2 ^ 31
      (legal → a.st = .off ∨ a.st = .noClock → Does (.asrcAcquiring out r) s (AsrBecomes s out { a with st := .acquiring, ratio := r }))
      ∧ (legal → a.st = .acquiring → ∀ ms, Does (.asrcLocked out r ms) s (AsrBecomes s out { a with st := .locked, ratio := r, ms := ms, ramp := 0 }))
      ∧ (a.st ≠ .noClock → Does (.asrcNoClock out) s (AsrBecomes s out { a with st := .noClock, ramp := 64 }))
      ∧ (¬legal ∨ a.st = .locked → exec (.asrcAcquiring out r) s = .next s ∧ ∀ ms, exec (.asrcLocked out r ms) s = .next s))
  ∧ (∀ (s : State) (out : Bool), (asrOf s out).st = .locked → Does (.asrcPhaseLoss out) s
      (AsrBecomes s out { asrOf s out with st := .acquiring, ramp := 64 }))
  ∧ (∀ (s : State) (out : Bool), (asrOf s out).st ≠ .locked → ∀ c ∈ [Instr.asrcPhaseLoss out, .portOverrun out, .converterUnderrun out], exec c s = .next s)
  ∧ (∀ (s : State) (out : Bool) (r : Word) (ms : Byte), asrUsed s out = false →
      ∀ c ∈ [Instr.asrcAcquiring out r, .asrcLocked out r ms, .asrcNoClock out], exec c s = .next s)
  ∧ (∀ s : State, getB s Reg.cltLogHead 22 = false → s.cleat.queue = [] →
      (∀ out, (asrOf s out).st = .locked → Does (.portOverrun out) s (fun t => getB t Reg.audStatus (if out then 3 else 4) = true
          ∧ getF t Reg.audCounts 31 24 = upTo 255 (getF s Reg.audCounts 31 24) ∧ t.lay = s.lay ∧ t.mem = s.mem ∧ t.audio = s.audio
          ∧ t.cleat.queue = [⟨.portOverrun, .none, false, false, false, s.clock.slot, 0, frameNo s, if out then 0xA else 0xB⟩]))
      ∧ ((asrOf s false).st = .locked → Does (.converterUnderrun false) s (fun t => getB t Reg.audStatus 2 = true
          ∧ getF t Reg.audCounts 23 16 = upTo 255 (getF s Reg.audCounts 23 16) ∧ t.lay = s.lay ∧ t.mem = s.mem ∧ t.audio = s.audio
          ∧ t.cleat.queue = [⟨.portUnderrun, .none, false, false, false, s.clock.slot, 0, frameNo s, 0xB⟩]))
      ∧ ((asrOf s true).st = .locked → Does (.converterUnderrun true) s (fun t => getB t Reg.audStatus 0 = true
          ∧ getF t Reg.audCounts 7 0 = upTo 255 (getF s Reg.audCounts 7 0) ∧ (cOn s = true → getB t Reg.audStatus 1 = true
            ∧ getF t Reg.audCounts 15 8 = upTo 255 (getF s Reg.audCounts 15 8)) ∧ t.lay = s.lay ∧ t.mem = s.mem ∧ t.audio = s.audio)))
  ∧ (∀ g x : Cell, (g.msb = true → gainSample g x = 0) ∧ (g.msb = false →
      let exact := (2 * (x.toInt * (g.toNat % 65536 : Nat)) + 32768) / 65536
      (Fits24 exact → (gainSample g x).toInt = exact) ∧ (exact > 8388607 → gainSample g x = 0x7FFFFF) ∧ (exact < -8388608 → gainSample g x = 0x800000)))
  ∧ (∀ x : Cell, slotCell 24 x = x ∧ slotCell 32 x = x ∧ (slotCell 16 x).toInt % 256 = 0
      ∧ (x.toInt ≤ 8388479 → 2 * (slotCell 16 x).toInt ≤ 2 * x.toInt + 256 ∧ 2 * x.toInt < 2 * (slotCell 16 x).toInt + 256)
      ∧ (x.toInt > 8388479 → slotCell 16 x = 0x7FFF00))

/-! ### The events of a frame, and the MODE command -/

namespace Sys2Proof.Machine.Claim

/-- Event e has starved and is not logged (R334). -/
def starving (s : State) (e : Nat) : Bool :=
  getB s Reg.layEvtPend e && getB s Reg.layEvtEn e && decide (vget s.events.age e 0 ≥ 64) && !vget s.events.logged e false

/-- The PEC byte of a MODE command with data byte d (R685). -/
def modePec (s : State) (d : Byte) : Byte := BitVec.ofNat 8 (crc8 [BitVec.ofNat 8 (fld (twbAddrWord s) 6 0 * 2), 0x83, d])

/-- The fail-safe inputs leave sink n to the Lay, and its DAC value is not 0 (R811). -/
def layDriven (s : State) (n : Nat) : Prop := (fsOwns s.power.mode && fsNames s n) = false ∧ sinkDac s n ≠ 0

end Sys2Proof.Machine.Claim

/-- LIGHT_TICK, FRAME_OVERRUN, SLACK_STARVED, START_PULSE and the two-wire MODE command, each carried out with its effect. R49, R53,
R813: at a light tick the sinks latch code and duty, the PWM period starts anew, and every chain feed that can start starts; a
sink with duty D conducts at count t where (t − P_n) mod 65,536 lies below D, and a longer period holds count 65,535. R43: a Lay
that still runs at the fence stops there, its frame overran, and your Slack program has the slots that are left. R334: an event
that starves is logged, once. R659: a START pulse in RAISE or WORKSHOP ends the frame, and the next frame tick is that of
frame 0. R686, R689, Table 14.3: MODE writes SYS_MODE_REQ with its key, under a PEC only where that matches.
Resting on the model's choice in log entry 17. -/
def Obligations.LightTickOverrunStarvedStartPulseAndModeComplete : Prop :=
  (∀ s : State, s.clock.holdDue = false → s.clock.lightDue = true → s.rom.code = none → s.light.step = none → s.mem.ecc = [] →
      s.power.mode ∈ [.run, .workshop, .quiesce] → s.light.handover = none → Does .lightTick s (fun t =>
        t.clock.lightDue = false ∧ (∀ n (h : n < 24), (t.light.latch[n]).code = getF s (Reg.snkCur n) 7 0
          ∧ (t.light.latch[n]).duty = dutyOf (sget zero s.mem.port n))
        ∧ ∀ ch, ch < 8 → (chan s ch).st = .running → chKind s ch = 2 → (chan s ch).sending = false → getB s Reg.ropCfg 31 = true →
            (chan t ch).sending = true ∧ (chan t ch).buf = !(chan s ch).buf
            ∧ ∃ cells, Job.feed ch (BitVec.ofNat 8 (chF s ch 2 7 0)) cells ∈ t.rope.wire))
  ∧ (∀ (s : State) (ti : TickIn), PlainTick s → Does (.frameTick ti) s (fun t => t.clock.lightDue = true → pwmCount t = 0))
  ∧ (∀ (s : State) (n : Nat), n < 24 → layDriven s n →
      let d := (vget s.light.latch n ⟨255, 0, false, false, 256⟩).duty
      let count : Int := min ((s.clock.time - s.light.pwmStart : Nat) : Int) 65535
      sinkOn s n = true ↔ d = 0xFFFF ∨ (count - (n * 65536 / 24 : Nat)) % 65536 < d)
  ∧ (∀ s : State, s.lay.inLay = true → s.lay.stepping = false → s.clock.slot ≤ fence s → Does .frameOverrun s (fun t => t.lay.inLay = false ∧ t.lay.overran = true ∧ t.lay.tainted = true ∧ t.clock.slot = fence s
      ∧ getB t Reg.layStatus 1 = true
      ∧ (s.power.factory = false → tickDue s = false → fence s < s.clock.frameLen → romRuns t = false → slackIssues t = true →
          issuer t = some false)))
  ∧ (∀ (s : State) (e : Nat), e < 22 → starving s e = true → (∀ k, k < 22 → k ≠ e → starving s k = false) →
      s.cleat.queue = [] → getB s Reg.cltLogHead 22 = false → Does .slackStarved s (fun t =>
        t.cleat.queue = [⟨.slackStarved, .none, false, false, false, s.clock.slot, 0, frameNo s, BitVec.ofNat 32 (64 * 65536 + e)⟩]
        ∧ getB t Reg.layEvtPend e = true ∧ (∀ k, k < 22 → starving t k = false) ∧ exec .slackStarved t = .next t))
  ∧ (∀ s : State, Settled s → getF s Reg.ropCfg 29 28 = 1 → (s.power.mode = .raise ∨ s.power.mode = .workshop) → frameTicks s = true →
      s.clock.startDue = false → Does .startPulse s (fun t => t.clock.startDue = true ∧ t.clock.slot = s.clock.slot + 1
        ∧ t.clock.time = s.clock.time + 1 ∧ t.lay.inLay = false ∧ t.power.mode = s.power.mode ∧ frameNo t = frameNo s
        ∧ t.mem.deck = s.mem.deck))
  ∧ (∀ (s : State) (ti : TickIn), PlainTick s → s.clock.startDue = true → Does (.frameTick ti) s (fun t => frameNo t = 0 ∧ t.clock.slot = 0
      ∧ t.clock.startDue = false))
  ∧ (∀ (s : State) (d : Byte),
      let written := fun (t : State) (acks : List Bool) => ∃ u,
        exec (.registerWrite .twb 0 6 (BitVec.ofNat 32 (0x4D000000 + d.toNat % 16))) s = .next u ∧ t = twbSaid u acks []
      (twbAnswers s = true → s.power.mode ≠ .raise →
        Does (.twbCmdMode ⟨false, [d], none⟩) s (fun t => written t [true, true, true])
        ∧ (getB s Reg.twbCfg 28 = true →
            Does (.twbCmdMode ⟨true, [d], some (modePec s d)⟩) s (fun t => written t [true, true, true, true])
            ∧ ∀ p, p ≠ modePec s d → Does (.twbCmdMode ⟨true, [d], some p⟩) s (fun t => t.twb.acks = [true, true, true, false]
                ∧ getB t Reg.twbStatus 4 = true ∧ t.power = s.power ∧ t.lay = s.lay ∧ t.mem = s.mem)))
      ∧ (twbAnswers s = true → s.power.mode = .raise → exec (.twbCmdMode ⟨false, [d], none⟩) s = .next (twbSaid s [true, false] []))
      ∧ (twbAnswers s = false → exec (.twbCmdMode ⟨false, [d], none⟩) s = .next (twbSaid s [false] [])))
end

