-- ==== Sys2Proof/Laws/Bits.lean ====
section
/-! SUPPORT. The laws of bit fields: what a field and a bit read after one is replaced. -/

namespace Sys2Proof.Machine

variable {w : Word} {hi lo hi' lo' v n m i : Nat} {b : Bool}

theorem fld_lt : fld w hi lo < 2 ^ (hi + 1 - lo) := Nat.mod_lt _ (by positivity)

/-- Bit i of a field is bit lo + i of the register. -/
theorem fld_testBit : (fld w hi lo).testBit i = (decide (i < hi + 1 - lo) && w.toNat.testBit (lo + i)) := by
  simp [fld, Nat.testBit_mod_two_pow, Nat.testBit_div_two_pow, Nat.add_comm]

theorem bit_testBit : bit w n = w.toNat.testBit n := by
  simp [bit, Nat.testBit, Nat.shiftRight_eq_div_pow, Nat.and_comm 1, Nat.and_one_is_mod]

/-- Every bit of a register after a field of it is replaced. -/
theorem putFld_testBit (hh : hi < 32) (hl : lo ≤ hi) :
    (putFld w hi lo v).toNat.testBit i
      = if lo ≤ i ∧ i ≤ hi then v.testBit (i - lo) else w.toNat.testBit i := by
  obtain ⟨k, rfl⟩ : ∃ k, hi = lo + k := ⟨hi - lo, by omega⟩
  have hk : lo + k + 1 - lo = k + 1 := by omega
  set W := w.toNat with hW
  have hW32 : W < 2 ^ 32 := w.isLt
  set B := W % 2 ^ lo
  set Q := W / 2 ^ lo
  set F := Q % 2 ^ (k + 1)
  set A := Q / 2 ^ (k + 1)
  have hB : B < 2 ^ lo := Nat.mod_lt _ (by positivity)
  have hF : F < 2 ^ (k + 1) := Nat.mod_lt _ (by positivity)
  have hv : v % 2 ^ (k + 1) < 2 ^ (k + 1) := Nat.mod_lt _ (by positivity)
  have e1 : W = 2 ^ lo * (2 ^ (k + 1) * A + F) + B := by
    have h1 := Nat.div_add_mod W (2 ^ lo)
    have h2 := Nat.div_add_mod Q (2 ^ (k + 1))
    simp only [A, F, B]; rw [h2]; exact h1.symm
  have e2 : (putFld w (lo + k) lo v).toNat = 2 ^ lo * (2 ^ (k + 1) * A + v % 2 ^ (k + 1)) + B := by
    have hs : 2 ^ lo * (2 ^ (k + 1) * A + v % 2 ^ (k + 1)) + B < 2 ^ 32 := by
      have hA : A < 2 ^ (32 - lo - (k + 1)) := by
        simp only [A, Q]; rw [Nat.div_div_eq_div_mul, ← Nat.pow_add]
        apply Nat.div_lt_of_lt_mul; rw [← Nat.pow_add]
        have : lo + (k + 1) + (32 - lo - (k + 1)) = 32 := by omega
        rw [this]; exact hW32
      have h3 : 2 ^ (k + 1) * A + v % 2 ^ (k + 1) < 2 ^ (k + 1) * 2 ^ (32 - lo - (k + 1)) := by
        calc _ < 2 ^ (k + 1) * A + 2 ^ (k + 1) := by omega
          _ = 2 ^ (k + 1) * (A + 1) := by ring
          _ ≤ _ := Nat.mul_le_mul_left _ hA
      have h4 : 2 ^ lo * (2 ^ (k + 1) * A + v % 2 ^ (k + 1)) + B < 2 ^ lo * (2 ^ (k + 1) * 2 ^ (32 - lo - (k + 1))) := by
        calc _ < 2 ^ lo * (2 ^ (k + 1) * A + v % 2 ^ (k + 1)) + 2 ^ lo := by omega
          _ = 2 ^ lo * (2 ^ (k + 1) * A + v % 2 ^ (k + 1) + 1) := by ring
          _ ≤ _ := Nat.mul_le_mul_left _ h3
      rw [← Nat.pow_add, ← Nat.pow_add] at h4
      have : lo + (k + 1 + (32 - lo - (k + 1))) = 32 := by omega
      rwa [this] at h4
    have hf : fld w (lo + k) lo = F := by simp only [fld, hk]; rfl
    unfold putFld
    rw [hf, hk, BitVec.toNat_ofNat]
    have e3 : W - F * 2 ^ lo + v % 2 ^ (k + 1) * 2 ^ lo = 2 ^ lo * (2 ^ (k + 1) * A + v % 2 ^ (k + 1)) + B := by
      have : W = (2 ^ lo * (2 ^ (k + 1) * A) + B) + F * 2 ^ lo := by rw [e1]; ring
      have h5 : W - F * 2 ^ lo = 2 ^ lo * (2 ^ (k + 1) * A) + B := by omega
      rw [h5]; ring
    rw [← hW, e3]; exact Nat.mod_eq_of_lt hs
  rw [e2, Nat.testBit_two_pow_mul_add _ hB]
  conv_rhs => rw [e1, Nat.testBit_two_pow_mul_add _ hB]
  by_cases h1 : i < lo
  · simp [h1, show ¬ (lo ≤ i ∧ i ≤ lo + k) by omega]
  · simp only [h1, if_false]
    rw [Nat.testBit_two_pow_mul_add _ hv, Nat.testBit_two_pow_mul_add _ hF]
    by_cases h2 : i ≤ lo + k
    · simp [show lo ≤ i by omega, h2, show i - lo < k + 1 by omega, Nat.testBit_mod_two_pow]
    · simp [h2, show ¬ (i - lo < k + 1) by omega]

/-- A field reads what was put into it. -/
@[simp] theorem fld_putFld (hh : hi < 32) (hl : lo ≤ hi) : fld (putFld w hi lo v) hi lo = v % 2 ^ (hi + 1 - lo) := by
  apply Nat.eq_of_testBit_eq
  intro i
  rw [fld_testBit, putFld_testBit hh hl, Nat.testBit_mod_two_pow]
  by_cases h : i < hi + 1 - lo <;> simp [h] ; omega

/-- A field apart from the one replaced keeps its value. -/
theorem fld_putFld_other (hh : hi < 32) (hl : lo ≤ hi) (h : hi' < lo ∨ hi < lo') :
    fld (putFld w hi lo v) hi' lo' = fld w hi' lo' := by
  apply Nat.eq_of_testBit_eq
  intro i
  rw [fld_testBit, fld_testBit, putFld_testBit hh hl]
  by_cases h1 : i < hi' + 1 - lo'
  · have : ¬ (lo ≤ lo' + i ∧ lo' + i ≤ hi) := by omega
    simp [this]
  · simp [h1]

/-- A bit outside the field replaced keeps its value. -/
theorem bit_putFld_other (hh : hi < 32) (hl : lo ≤ hi) (h : n < lo ∨ hi < n) :
    bit (putFld w hi lo v) n = bit w n := by
  rw [bit_testBit, bit_testBit, putFld_testBit hh hl, if_neg (by omega)]

/-- A bit reads what was put into it. -/
@[simp] theorem bit_putBit (hn : n < 32) : bit (putBit w n b) n = b := by
  rw [bit_testBit, putBit, putFld_testBit hn (le_refl n)]
  cases b <;> simp [b2n]

/-- A bit apart from the one replaced keeps its value. -/
theorem bit_putBit_other (hn : n < 32) (h : m ≠ n) : bit (putBit w n b) m = bit w m :=
  bit_putFld_other hn (le_refl n) (by omega)

/-- A field apart from the bit replaced keeps its value. -/
theorem fld_putBit_other (hn : n < 32) (h : hi' < n ∨ n < lo') : fld (putBit w n b) hi' lo' = fld w hi' lo' :=
  fld_putFld_other hn (le_refl n) (by omega)

@[simp] theorem vget_vset_same {α : Type} {k : Nat} {x : Vector α k} {a d : α} (h : i < k) :
    vget (vset x i a) i d = a := by
  simp [vget, vset, h]

theorem vget_vset_other {α : Type} {k j : Nat} {x : Vector α k} {a d : α} (h : j ≠ i) :
    vget (vset x i a) j d = vget x j d := by
  have h' : i ≠ j := fun e => h e.symm
  by_cases hj : j < k
  · simp [vget, vset, h', hj]
  · simp [vget, vset, hj]

end Sys2Proof.Machine
end

