-- ==== Sys2Proof/Laws/Decode.lean ====
section
/-! SUPPORT. Decoding the words of an instruction gives it back (R381, R384, R385, R409). -/

namespace Sys2Proof.Laws

theorem rowOf_opcodeOf {i : Instr} {opc : Nat} {f : Form} (h : opcodeOf i = some (opc, f)) :
    rowOf opc f = some i ∧ opc < 64 := by
  cases i <;> simp [opcodeOf] at h <;> obtain ⟨rfl, rfl⟩ := h <;> exact ⟨rfl, by decide⟩

theorem rowOf_reserved {opc : Nat} (f : Form) (h : 0x26 ≤ opc) : rowOf opc f = none := by
  unfold rowOf; split <;> first | rfl | omega

theorem field_ofNat (v s n : Nat) : (BitVec.ofNat 32 v).extractLsb' s n = BitVec.ofNat n (v % 2 ^ 32 / 2 ^ s) := by
  apply BitVec.eq_of_toNat_eq
  simp [BitVec.extractLsb'_toNat, Nat.shiftRight_eq_div_pow]

theorem bit_ofNat (v s : Nat) : (BitVec.ofNat 32 v).getLsbD s = decide (v % 2 ^ 32 / 2 ^ s % 2 = 1) := by
  simp [BitVec.getLsbD, Nat.testBit_eq_decide_div_mod_eq]

theorem ofNat_eq_of {n v : Nat} {b : BitVec n} (h : v % 2 ^ n = b.toNat) : BitVec.ofNat n v = b :=
  BitVec.eq_of_toNat_eq (by simpa using h)

theorem short_bits (opc : Nat) (aux : BitVec 2) (x y : BitVec 12) (h : opc < 32) :
    let w : Word := BitVec.ofNat 32 (opc % 32 * 2 ^ 26 + aux.toNat * 2 ^ 24 + x.toNat * 2 ^ 12 + y.toNat)
    w.getLsbD 31 = false ∧ (w.extractLsb' 26 5).toNat = opc ∧ shortFields w = .short aux x y := by
  have h1 := aux.isLt; have h2 := x.isLt; have h3 := y.isLt
  refine ⟨?_, ?_, ?_⟩
  · rw [bit_ofNat]; simp only [decide_eq_false_iff_not]; omega
  · rw [field_ofNat, BitVec.toNat_ofNat]; omega
  · simp only [shortFields, field_ofNat]
    congr <;> apply ofNat_eq_of <;> omega

theorem long_bits (opc : Nat) (fp lane : BitVec 2) (xs : Bool) (rnd sat : BitVec 2) (trk : Bool) (c1 : BitVec 12)
    (fm : BitVec 3) (fpl : BitVec 20) (c2 : BitVec 12) (h : opc < 64) :
    let w : Word := BitVec.ofNat 32 (2 ^ 31 + opc % 64 * 2 ^ 25 + fp.toNat * 2 ^ 23 + lane.toNat * 2 ^ 21 + xs.toNat * 2 ^ 20
      + rnd.toNat * 2 ^ 18 + sat.toNat * 2 ^ 16 + trk.toNat * 2 ^ 15 + c1.toNat * 2 ^ 3 + fm.toNat)
    w.getLsbD 31 = true ∧ (w.extractLsb' 25 6).toNat = opc
      ∧ longFields w (BitVec.ofNat 32 (fpl.toNat * 2 ^ 12 + c2.toNat)) = .long fp lane xs rnd sat trk c1 fm fpl c2 := by
  have h1 := fp.isLt; have h2 := lane.isLt; have h3 := rnd.isLt; have h4 := sat.isLt; have h5 := c1.isLt
  have h6 := fm.isLt; have h7 := fpl.isLt; have h8 := c2.isLt; have h9 := xs.toNat_lt; have h10 := trk.toNat_lt
  refine ⟨?_, ?_, ?_⟩
  · rw [bit_ofNat]; simp only [decide_eq_true_eq]; omega
  · rw [field_ofNat, BitVec.toNat_ofNat]; omega
  · simp only [longFields, field_ofNat, bit_ofNat]
    congr <;> first
      | (apply ofNat_eq_of; omega)
      | (cases xs <;> cases trk <;> simp only [Bool.toNat_true, Bool.toNat_false, decide_eq_true_eq, decide_eq_false_iff_not] at * <;> omega)

/-- What an instruction that the encoder takes is encoded as decodes to it. -/
theorem decode_encode {i : Instr} (h : encodable i = true) :
    ∃ w0 ws, encode i = some (w0 :: ws) ∧ wordsOf w0 = (if ws.isEmpty && !w0.getLsbD 31 then 1 else 2)
      ∧ ∀ w, decodeWords w0 (ws.headD w) = i := by
  unfold encodable at h
  cases ho : opcodeOf i with
  | none => simp [ho] at h
  | some p =>
    obtain ⟨opc, f⟩ := p
    obtain ⟨hr, hlt⟩ := rowOf_opcodeOf ho
    cases f with
    | short aux x y =>
      simp only [ho, decide_eq_true_eq] at h
      obtain ⟨h31, hop, hf⟩ := short_bits opc aux x y h
      refine ⟨_, _, by simp only [encode, ho, Option.map_some, encodeForm]; rfl, ?_, ?_⟩
      · simp only [wordsOf, h31]; rfl
      · intro w; simp only [decodeWords, h31, hop, hf, hr]; rfl
    | long fp lane xs rnd sat trk c1 fm fpl c2 =>
      obtain ⟨h31, hop, hf⟩ := long_bits opc fp lane xs rnd sat trk c1 fm fpl c2 hlt
      refine ⟨_, _, by simp only [encode, ho, Option.map_some, encodeForm]; rfl, ?_, ?_⟩
      · simp only [wordsOf, h31]; rfl
      · intro w; simp only [decodeWords, h31, hop, List.headD_cons, hf, hr]; rfl
    | reserved w0 =>
      simp only [ho, Bool.and_eq_true, beq_iff_eq, decide_eq_true_eq] at h
      obtain ⟨⟨rfl, h31⟩, hop⟩ := h
      have hi : i = .nop (.reserved w0) := by simpa [rowOf] using hr.symm
      refine ⟨_, _, by simp only [encode, ho, Option.map_some, encodeForm]; rfl, ?_, ?_⟩
      · simp only [wordsOf, h31]; rfl
      · intro w; simp only [decodeWords, h31, rowOf_reserved _ hop, hi]; rfl

end Sys2Proof.Laws
end

