-- ==== Sys2Proof/Laws/Store.lean ====
section
/-! SUPPORT. The laws of sparse stores: read after write, and a write keeps the canonical form. -/

namespace Sys2Proof.Machine

variable {w : Nat} {d : Nat → BitVec w} {m : List (Nat × BitVec w)} {a b lo : Nat} {v : BitVec w}

@[simp] theorem sget_serase_same : sget d (serase m a) a = d a := by
  induction m with
  | nil => rfl
  | cons e m ih => by_cases h : a = e.1 <;> simp [serase, sget, h] <;> simp_all

theorem sget_serase_other (h : a ≠ b) : sget d (serase m b) a = sget d m a := by
  induction m with
  | nil => rfl
  | cons e m ih =>
    by_cases hb : b = e.1
    · by_cases ha : a = e.1
      · exact absurd (ha.trans hb.symm) h
      · simp [serase, sget, hb, ha]; simpa [hb] using ih
    · simp [serase, sget, hb, ih]

@[simp] theorem sget_sinsert_same : sget d (sinsert m a v) a = v := by
  induction m with
  | nil => simp [sinsert, sget]
  | cons e m ih =>
    simp only [sinsert]
    split
    · simp [sget]
    · split
      · simp [sget]
      · simp [sget, *]

theorem sget_sinsert_other (h : a ≠ b) : sget d (sinsert m b v) a = sget d m a := by
  induction m with
  | nil => simp [sinsert, sget, h]
  | cons e m ih =>
    simp only [sinsert]
    split
    · simp [sget, h]
    · split
      · rename_i h2; simp [sget, h2 ▸ h, h]
      · simp [sget, ih]

/-- A read after a write to the same address gives the value written. -/
@[simp] theorem sget_sput_same : sget d (sput d m a v) a = v := by
  unfold sput; split <;> simp_all

/-- A write leaves every other address alone. -/
theorem sget_sput_other (h : a ≠ b) : sget d (sput d m b v) a = sget d m a := by
  unfold sput; split
  · exact sget_serase_other h
  · exact sget_sinsert_other h

theorem srising_mono (h : srising m b = true) (hab : a ≤ b) : srising m a = true := by
  cases m with
  | nil => rfl
  | cons e m => simp [srising] at h ⊢; exact ⟨by omega, h.2⟩

theorem srising_serase (h : srising m lo = true) : srising (serase m a) lo = true := by
  induction m generalizing lo with
  | nil => rfl
  | cons e m ih =>
    simp [srising] at h
    simp only [serase]
    split
    · exact srising_mono (ih h.2) (by omega)
    · simp [srising, h.1, ih h.2]

theorem srising_sinsert (h : srising m lo = true) (hl : lo ≤ a) : srising (sinsert m a v) lo = true := by
  induction m generalizing lo with
  | nil => simp [sinsert, srising, hl]
  | cons e m ih =>
    simp [srising] at h
    simp only [sinsert]
    split
    · simp [srising, hl, h.2]; omega
    · split
      · rename_i heq; subst heq; simp [srising, hl, h.2]
      · simp [srising, h.1]; exact ih h.2 (by omega)

theorem all_serase {p : Nat × BitVec w → Bool} (h : m.all p = true) : (serase m a).all p = true := by
  induction m with
  | nil => rfl
  | cons e m ih =>
    simp only [List.all_cons, Bool.and_eq_true] at h
    simp only [serase]
    split
    · exact ih h.2
    · simp only [List.all_cons, Bool.and_eq_true]; exact ⟨h.1, ih h.2⟩

theorem all_sinsert {p : Nat × BitVec w → Bool} (h : m.all p = true) (hv : p (a, v) = true) :
    (sinsert m a v).all p = true := by
  induction m with
  | nil => simp [sinsert, hv]
  | cons e m ih =>
    simp at h ih
    simp only [sinsert]
    split
    · simp [hv, h.1]; exact h.2
    · split
      · simp [hv]; exact h.2
      · simp [h.1]; exact ih h.2

/-- A write keeps a store in canonical form. -/
@[simp] theorem swf_sput (h : swf d m = true) : swf d (sput d m a v) = true := by
  simp only [swf, Bool.and_eq_true] at h ⊢
  unfold sput; split
  · exact ⟨srising_serase h.1, all_serase h.2⟩
  · exact ⟨srising_sinsert h.1 (by omega), all_sinsert h.2 (by simpa using ‹_›)⟩

@[simp] theorem swf_nil : swf d [] = true := rfl

/-- A filtered store is in canonical form. -/
theorem swf_filter {p : Nat × BitVec w → Bool} (h : swf d m = true) : swf d (m.filter p) = true := by
  simp only [swf, Bool.and_eq_true] at h ⊢
  refine ⟨?_, by simp at h ⊢; exact fun a b hab => .inr (h.2 a b hab)⟩
  have := h.1
  clear h
  revert this
  generalize 0 = lo
  intro h
  induction m generalizing lo with
  | nil => rfl
  | cons e m ih =>
    simp [srising] at h
    simp only [List.filter_cons]
    split
    · simp [srising, h.1, ih _ h.2]
    · exact srising_mono (ih _ h.2) (by omega)

/-- Two canonical stores that read alike are the same data. -/
theorem srising_sget (h : srising m lo = true) (hb : a < lo) : sget d m a = d a := by
  induction m generalizing lo with
  | nil => rfl
  | cons e m ih =>
    simp [srising] at h
    have : a ≠ e.1 := by omega
    simp [sget, this, ih h.2 (by omega)]

end Sys2Proof.Machine
end

