-- ==== Sys2Proof/Laws/State.lean ====
section
/-! SUPPORT. What the named updates of State leave alone, one lemma for each field, and what the register file reads
after a write. -/

namespace Sys2Proof.Machine

variable {s : State} {r q hi lo hi' lo' v n m : Nat} {w : Word} {b : Bool}

@[simp] theorem setReg_pending : (setReg s r w).pending = s.pending := rfl
@[simp] theorem setReg_straps : (setReg s r w).straps = s.straps := rfl
@[simp] theorem setReg_power : (setReg s r w).power = s.power := rfl
@[simp] theorem setReg_clock : (setReg s r w).clock = s.clock := rfl
@[simp] theorem setReg_clk : (setReg s r w).clk = s.clk := rfl
@[simp] theorem setReg_tickPend : (setReg s r w).tickPend = s.tickPend := rfl
@[simp] theorem setReg_lay : (setReg s r w).lay = s.lay := rfl
@[simp] theorem setReg_mem : (setReg s r w).mem = s.mem := rfl
@[simp] theorem setReg_map : (setReg s r w).map = s.map := rfl
@[simp] theorem setReg_cleat : (setReg s r w).cleat = s.cleat := rfl
@[simp] theorem setReg_events : (setReg s r w).events = s.events := rfl
@[simp] theorem setReg_splice : (setReg s r w).splice = s.splice := rfl
@[simp] theorem setReg_loader : (setReg s r w).loader = s.loader := rfl
@[simp] theorem setReg_xp : (setReg s r w).xp = s.xp := rfl
@[simp] theorem setReg_reel : (setReg s r w).reel = s.reel := rfl
@[simp] theorem setReg_rope : (setReg s r w).rope = s.rope := rfl
@[simp] theorem setReg_twb : (setReg s r w).twb = s.twb := rfl
@[simp] theorem setReg_hal : (setReg s r w).hal = s.hal := rfl
@[simp] theorem setReg_audio : (setReg s r w).audio = s.audio := rfl
@[simp] theorem setReg_light : (setReg s r w).light = s.light := rfl
@[simp] theorem setReg_whip : (setReg s r w).whip = s.whip := rfl
@[simp] theorem setReg_tally : (setReg s r w).tally = s.tally := rfl
@[simp] theorem setReg_rom : (setReg s r w).rom = s.rom := rfl
@[simp] theorem setReg_pins : (setReg s r w).pins = s.pins := rfl
@[simp] theorem setReg_free : (setReg s r w).free = s.free := rfl

@[simp] theorem setF_pending : (setF s r hi lo v).pending = s.pending := rfl
@[simp] theorem setF_straps : (setF s r hi lo v).straps = s.straps := rfl
@[simp] theorem setF_power : (setF s r hi lo v).power = s.power := rfl
@[simp] theorem setF_clock : (setF s r hi lo v).clock = s.clock := rfl
@[simp] theorem setF_clk : (setF s r hi lo v).clk = s.clk := rfl
@[simp] theorem setF_tickPend : (setF s r hi lo v).tickPend = s.tickPend := rfl
@[simp] theorem setF_lay : (setF s r hi lo v).lay = s.lay := rfl
@[simp] theorem setF_mem : (setF s r hi lo v).mem = s.mem := rfl
@[simp] theorem setF_map : (setF s r hi lo v).map = s.map := rfl
@[simp] theorem setF_cleat : (setF s r hi lo v).cleat = s.cleat := rfl
@[simp] theorem setF_events : (setF s r hi lo v).events = s.events := rfl
@[simp] theorem setF_splice : (setF s r hi lo v).splice = s.splice := rfl
@[simp] theorem setF_loader : (setF s r hi lo v).loader = s.loader := rfl
@[simp] theorem setF_xp : (setF s r hi lo v).xp = s.xp := rfl
@[simp] theorem setF_reel : (setF s r hi lo v).reel = s.reel := rfl
@[simp] theorem setF_rope : (setF s r hi lo v).rope = s.rope := rfl
@[simp] theorem setF_twb : (setF s r hi lo v).twb = s.twb := rfl
@[simp] theorem setF_hal : (setF s r hi lo v).hal = s.hal := rfl
@[simp] theorem setF_audio : (setF s r hi lo v).audio = s.audio := rfl
@[simp] theorem setF_light : (setF s r hi lo v).light = s.light := rfl
@[simp] theorem setF_whip : (setF s r hi lo v).whip = s.whip := rfl
@[simp] theorem setF_tally : (setF s r hi lo v).tally = s.tally := rfl
@[simp] theorem setF_rom : (setF s r hi lo v).rom = s.rom := rfl
@[simp] theorem setF_pins : (setF s r hi lo v).pins = s.pins := rfl
@[simp] theorem setF_free : (setF s r hi lo v).free = s.free := rfl

@[simp] theorem setB_pending : (setB s r n b).pending = s.pending := rfl
@[simp] theorem setB_straps : (setB s r n b).straps = s.straps := rfl
@[simp] theorem setB_power : (setB s r n b).power = s.power := rfl
@[simp] theorem setB_clock : (setB s r n b).clock = s.clock := rfl
@[simp] theorem setB_clk : (setB s r n b).clk = s.clk := rfl
@[simp] theorem setB_tickPend : (setB s r n b).tickPend = s.tickPend := rfl
@[simp] theorem setB_lay : (setB s r n b).lay = s.lay := rfl
@[simp] theorem setB_mem : (setB s r n b).mem = s.mem := rfl
@[simp] theorem setB_map : (setB s r n b).map = s.map := rfl
@[simp] theorem setB_cleat : (setB s r n b).cleat = s.cleat := rfl
@[simp] theorem setB_events : (setB s r n b).events = s.events := rfl
@[simp] theorem setB_splice : (setB s r n b).splice = s.splice := rfl
@[simp] theorem setB_loader : (setB s r n b).loader = s.loader := rfl
@[simp] theorem setB_xp : (setB s r n b).xp = s.xp := rfl
@[simp] theorem setB_reel : (setB s r n b).reel = s.reel := rfl
@[simp] theorem setB_rope : (setB s r n b).rope = s.rope := rfl
@[simp] theorem setB_twb : (setB s r n b).twb = s.twb := rfl
@[simp] theorem setB_hal : (setB s r n b).hal = s.hal := rfl
@[simp] theorem setB_audio : (setB s r n b).audio = s.audio := rfl
@[simp] theorem setB_light : (setB s r n b).light = s.light := rfl
@[simp] theorem setB_whip : (setB s r n b).whip = s.whip := rfl
@[simp] theorem setB_tally : (setB s r n b).tally = s.tally := rfl
@[simp] theorem setB_rom : (setB s r n b).rom = s.rom := rfl
@[simp] theorem setB_pins : (setB s r n b).pins = s.pins := rfl
@[simp] theorem setB_free : (setB s r n b).free = s.free := rfl

@[simp] theorem countUp_pending : (countUp s r hi lo).pending = s.pending := rfl
@[simp] theorem countUp_straps : (countUp s r hi lo).straps = s.straps := rfl
@[simp] theorem countUp_power : (countUp s r hi lo).power = s.power := rfl
@[simp] theorem countUp_clock : (countUp s r hi lo).clock = s.clock := rfl
@[simp] theorem countUp_clk : (countUp s r hi lo).clk = s.clk := rfl
@[simp] theorem countUp_tickPend : (countUp s r hi lo).tickPend = s.tickPend := rfl
@[simp] theorem countUp_lay : (countUp s r hi lo).lay = s.lay := rfl
@[simp] theorem countUp_mem : (countUp s r hi lo).mem = s.mem := rfl
@[simp] theorem countUp_map : (countUp s r hi lo).map = s.map := rfl
@[simp] theorem countUp_cleat : (countUp s r hi lo).cleat = s.cleat := rfl
@[simp] theorem countUp_events : (countUp s r hi lo).events = s.events := rfl
@[simp] theorem countUp_splice : (countUp s r hi lo).splice = s.splice := rfl
@[simp] theorem countUp_loader : (countUp s r hi lo).loader = s.loader := rfl
@[simp] theorem countUp_xp : (countUp s r hi lo).xp = s.xp := rfl
@[simp] theorem countUp_reel : (countUp s r hi lo).reel = s.reel := rfl
@[simp] theorem countUp_rope : (countUp s r hi lo).rope = s.rope := rfl
@[simp] theorem countUp_twb : (countUp s r hi lo).twb = s.twb := rfl
@[simp] theorem countUp_hal : (countUp s r hi lo).hal = s.hal := rfl
@[simp] theorem countUp_audio : (countUp s r hi lo).audio = s.audio := rfl
@[simp] theorem countUp_light : (countUp s r hi lo).light = s.light := rfl
@[simp] theorem countUp_whip : (countUp s r hi lo).whip = s.whip := rfl
@[simp] theorem countUp_tally : (countUp s r hi lo).tally = s.tally := rfl
@[simp] theorem countUp_rom : (countUp s r hi lo).rom = s.rom := rfl
@[simp] theorem countUp_pins : (countUp s r hi lo).pins = s.pins := rfl
@[simp] theorem countUp_free : (countUp s r hi lo).free = s.free := rfl

@[simp] theorem setCtx_pending {x : Bool} {c : Ctx} : (setCtx s x c).pending = s.pending := rfl
@[simp] theorem setCtx_straps {x : Bool} {c : Ctx} : (setCtx s x c).straps = s.straps := rfl
@[simp] theorem setCtx_power {x : Bool} {c : Ctx} : (setCtx s x c).power = s.power := rfl
@[simp] theorem setCtx_clock {x : Bool} {c : Ctx} : (setCtx s x c).clock = s.clock := rfl
@[simp] theorem setCtx_clk {x : Bool} {c : Ctx} : (setCtx s x c).clk = s.clk := rfl
@[simp] theorem setCtx_regs {x : Bool} {c : Ctx} : (setCtx s x c).regs = s.regs := rfl
@[simp] theorem setCtx_tickPend {x : Bool} {c : Ctx} : (setCtx s x c).tickPend = s.tickPend := rfl
@[simp] theorem setCtx_mem {x : Bool} {c : Ctx} : (setCtx s x c).mem = s.mem := rfl
@[simp] theorem setCtx_map {x : Bool} {c : Ctx} : (setCtx s x c).map = s.map := rfl
@[simp] theorem setCtx_cleat {x : Bool} {c : Ctx} : (setCtx s x c).cleat = s.cleat := rfl
@[simp] theorem setCtx_events {x : Bool} {c : Ctx} : (setCtx s x c).events = s.events := rfl
@[simp] theorem setCtx_splice {x : Bool} {c : Ctx} : (setCtx s x c).splice = s.splice := rfl
@[simp] theorem setCtx_loader {x : Bool} {c : Ctx} : (setCtx s x c).loader = s.loader := rfl
@[simp] theorem setCtx_xp {x : Bool} {c : Ctx} : (setCtx s x c).xp = s.xp := rfl
@[simp] theorem setCtx_reel {x : Bool} {c : Ctx} : (setCtx s x c).reel = s.reel := rfl
@[simp] theorem setCtx_rope {x : Bool} {c : Ctx} : (setCtx s x c).rope = s.rope := rfl
@[simp] theorem setCtx_twb {x : Bool} {c : Ctx} : (setCtx s x c).twb = s.twb := rfl
@[simp] theorem setCtx_hal {x : Bool} {c : Ctx} : (setCtx s x c).hal = s.hal := rfl
@[simp] theorem setCtx_audio {x : Bool} {c : Ctx} : (setCtx s x c).audio = s.audio := rfl
@[simp] theorem setCtx_light {x : Bool} {c : Ctx} : (setCtx s x c).light = s.light := rfl
@[simp] theorem setCtx_whip {x : Bool} {c : Ctx} : (setCtx s x c).whip = s.whip := rfl
@[simp] theorem setCtx_tally {x : Bool} {c : Ctx} : (setCtx s x c).tally = s.tally := rfl
@[simp] theorem setCtx_rom {x : Bool} {c : Ctx} : (setCtx s x c).rom = s.rom := rfl
@[simp] theorem setCtx_pins {x : Bool} {c : Ctx} : (setCtx s x c).pins = s.pins := rfl
@[simp] theorem setCtx_free {x : Bool} {c : Ctx} : (setCtx s x c).free = s.free := rfl

@[simp] theorem setWhip_pending {u : Nat} {x : Whip} : (setWhip s u x).pending = s.pending := rfl
@[simp] theorem setWhip_straps {u : Nat} {x : Whip} : (setWhip s u x).straps = s.straps := rfl
@[simp] theorem setWhip_power {u : Nat} {x : Whip} : (setWhip s u x).power = s.power := rfl
@[simp] theorem setWhip_clock {u : Nat} {x : Whip} : (setWhip s u x).clock = s.clock := rfl
@[simp] theorem setWhip_clk {u : Nat} {x : Whip} : (setWhip s u x).clk = s.clk := rfl
@[simp] theorem setWhip_regs {u : Nat} {x : Whip} : (setWhip s u x).regs = s.regs := rfl
@[simp] theorem setWhip_tickPend {u : Nat} {x : Whip} : (setWhip s u x).tickPend = s.tickPend := rfl
@[simp] theorem setWhip_lay {u : Nat} {x : Whip} : (setWhip s u x).lay = s.lay := rfl
@[simp] theorem setWhip_mem {u : Nat} {x : Whip} : (setWhip s u x).mem = s.mem := rfl
@[simp] theorem setWhip_map {u : Nat} {x : Whip} : (setWhip s u x).map = s.map := rfl
@[simp] theorem setWhip_cleat {u : Nat} {x : Whip} : (setWhip s u x).cleat = s.cleat := rfl
@[simp] theorem setWhip_events {u : Nat} {x : Whip} : (setWhip s u x).events = s.events := rfl
@[simp] theorem setWhip_splice {u : Nat} {x : Whip} : (setWhip s u x).splice = s.splice := rfl
@[simp] theorem setWhip_loader {u : Nat} {x : Whip} : (setWhip s u x).loader = s.loader := rfl
@[simp] theorem setWhip_xp {u : Nat} {x : Whip} : (setWhip s u x).xp = s.xp := rfl
@[simp] theorem setWhip_reel {u : Nat} {x : Whip} : (setWhip s u x).reel = s.reel := rfl
@[simp] theorem setWhip_rope {u : Nat} {x : Whip} : (setWhip s u x).rope = s.rope := rfl
@[simp] theorem setWhip_twb {u : Nat} {x : Whip} : (setWhip s u x).twb = s.twb := rfl
@[simp] theorem setWhip_hal {u : Nat} {x : Whip} : (setWhip s u x).hal = s.hal := rfl
@[simp] theorem setWhip_audio {u : Nat} {x : Whip} : (setWhip s u x).audio = s.audio := rfl
@[simp] theorem setWhip_light {u : Nat} {x : Whip} : (setWhip s u x).light = s.light := rfl
@[simp] theorem setWhip_tally {u : Nat} {x : Whip} : (setWhip s u x).tally = s.tally := rfl
@[simp] theorem setWhip_rom {u : Nat} {x : Whip} : (setWhip s u x).rom = s.rom := rfl
@[simp] theorem setWhip_pins {u : Nat} {x : Whip} : (setWhip s u x).pins = s.pins := rfl
@[simp] theorem setWhip_free {u : Nat} {x : Whip} : (setWhip s u x).free = s.free := rfl

@[simp] theorem extForget_pending : (extForget s).pending = s.pending := rfl
@[simp] theorem extForget_straps : (extForget s).straps = s.straps := rfl
@[simp] theorem extForget_power : (extForget s).power = s.power := rfl
@[simp] theorem extForget_clock : (extForget s).clock = s.clock := rfl
@[simp] theorem extForget_clk : (extForget s).clk = s.clk := rfl
@[simp] theorem extForget_regs : (extForget s).regs = s.regs := rfl
@[simp] theorem extForget_tickPend : (extForget s).tickPend = s.tickPend := rfl
@[simp] theorem extForget_lay : (extForget s).lay = s.lay := rfl
@[simp] theorem extForget_map : (extForget s).map = s.map := rfl
@[simp] theorem extForget_cleat : (extForget s).cleat = s.cleat := rfl
@[simp] theorem extForget_events : (extForget s).events = s.events := rfl
@[simp] theorem extForget_splice : (extForget s).splice = s.splice := rfl
@[simp] theorem extForget_loader : (extForget s).loader = s.loader := rfl
@[simp] theorem extForget_xp : (extForget s).xp = s.xp := rfl
@[simp] theorem extForget_reel : (extForget s).reel = s.reel := rfl
@[simp] theorem extForget_rope : (extForget s).rope = s.rope := rfl
@[simp] theorem extForget_twb : (extForget s).twb = s.twb := rfl
@[simp] theorem extForget_hal : (extForget s).hal = s.hal := rfl
@[simp] theorem extForget_audio : (extForget s).audio = s.audio := rfl
@[simp] theorem extForget_light : (extForget s).light = s.light := rfl
@[simp] theorem extForget_whip : (extForget s).whip = s.whip := rfl
@[simp] theorem extForget_tally : (extForget s).tally = s.tally := rfl
@[simp] theorem extForget_rom : (extForget s).rom = s.rom := rfl
@[simp] theorem extForget_pins : (extForget s).pins = s.pins := rfl
@[simp] theorem extForget_free : (extForget s).free = s.free := rfl

/-! ### The register file -/

@[simp] theorem getReg_setReg : getReg (setReg s r w) r = w := sget_sput_same

theorem getReg_setReg_other (h : q ≠ r) : getReg (setReg s r w) q = getReg s q := sget_sput_other h

theorem getReg_setF_other (h : q ≠ r) : getReg (setF s r hi lo v) q = getReg s q := sget_sput_other h

theorem getReg_setB_other (h : q ≠ r) : getReg (setB s r n b) q = getReg s q := sget_sput_other h

theorem getReg_countUp_other (h : q ≠ r) : getReg (countUp s r hi lo) q = getReg s q := sget_sput_other h

@[simp] theorem getF_setF (hh : hi < 32) (hl : lo ≤ hi) : getF (setF s r hi lo v) r hi lo = v % 2 ^ (hi + 1 - lo) := by
  simp [getF, setF, hh, hl]

theorem getF_setF_other (hh : hi < 32) (hl : lo ≤ hi) (h : q ≠ r ∨ hi' < lo ∨ hi < lo') :
    getF (setF s r hi lo v) q hi' lo' = getF s q hi' lo' := by
  by_cases hq : q = r
  · subst hq; simp only [getF, setF, getReg_setReg]; exact fld_putFld_other hh hl (by simpa using h)
  · simp only [getF, getReg_setF_other hq]

@[simp] theorem getB_setB (hn : n < 32) : getB (setB s r n b) r n = b := by simp [getB, setB, hn]

theorem getB_setB_other (hn : n < 32) (h : q ≠ r ∨ m ≠ n) : getB (setB s r n b) q m = getB s q m := by
  by_cases hq : q = r
  · subst hq; simp only [getB, setB, getReg_setReg]; exact bit_putBit_other hn (by simpa using h)
  · simp only [getB, getReg_setB_other hq]

theorem getB_setF_other (hh : hi < 32) (hl : lo ≤ hi) (h : q ≠ r ∨ m < lo ∨ hi < m) :
    getB (setF s r hi lo v) q m = getB s q m := by
  by_cases hq : q = r
  · subst hq; simp only [getB, setF, getReg_setReg]; exact bit_putFld_other hh hl (by simpa using h)
  · simp only [getB, getReg_setF_other hq]

theorem getF_setB_other (hn : n < 32) (h : q ≠ r ∨ hi' < n ∨ n < lo') :
    getF (setB s r n b) q hi' lo' = getF s q hi' lo' := by
  by_cases hq : q = r
  · subst hq; simp only [getF, setB, getReg_setReg]; exact fld_putBit_other hn (by simpa using h)
  · simp only [getF, getReg_setB_other hq]

/-! ### The contexts -/

@[simp] theorem ctxOf_setCtx {x : Bool} {c : Ctx} : ctxOf (setCtx s x c) x = c := by cases x <;> rfl

@[simp] theorem ctxOf_setCtx_other {x y : Bool} {c : Ctx} (h : x ≠ y) : ctxOf (setCtx s x c) y = ctxOf s y := by
  cases x <;> cases y <;> simp_all [ctxOf, setCtx]

/-! ### The stores stay canonical -/

@[simp] theorem setReg_storesOk (h : s.storesOk = true) : (setReg s r w).storesOk = true := by
  simp only [State.storesOk, Bool.and_eq_true] at h ⊢
  exact ⟨⟨⟨⟨h.1.1.1.1, swf_sput h.1.1.1.2⟩, h.1.1.2⟩, h.1.2⟩, h.2⟩

@[simp] theorem setF_storesOk (h : s.storesOk = true) : (setF s r hi lo v).storesOk = true := setReg_storesOk h

@[simp] theorem setB_storesOk (h : s.storesOk = true) : (setB s r n b).storesOk = true := setReg_storesOk h

@[simp] theorem countUp_storesOk (h : s.storesOk = true) : (countUp s r hi lo).storesOk = true := setReg_storesOk h

@[simp] theorem setCtx_storesOk {x : Bool} {c : Ctx} (h : s.storesOk = true) : (setCtx s x c).storesOk = true := h

@[simp] theorem setWhip_storesOk {u : Nat} {x : Whip} (h : s.storesOk = true) : (setWhip s u x).storesOk = true := h

end Sys2Proof.Machine
end

