-- ==== Sys2Proof/Laws/Keep.lean ====
section
/-! SUPPORT. How a proof that an operation keeps the stores canonical goes: through a choice, through a record update
that leaves the stores alone, through a loop. -/

namespace Sys2Proof.Machine

theorem ite_storesOk {c : Prop} [Decidable c] {a b : State} (ha : a.storesOk = true) (hb : b.storesOk = true) :
    (if c then a else b).storesOk = true := by split <;> assumption

theorem storesOk_congr {s t : State} (h : s.storesOk = true) (hm : t.mem = s.mem) (hr : t.regs = s.regs)
    (hx : t.rope.tx = s.rope.tx) (hy : t.rope.rx = s.rope.rx) (hc : t.twb.cbuf = s.twb.cbuf) : t.storesOk = true := by
  simp only [State.storesOk, hm, hr, hx, hy, hc]; exact h

theorem mem_storesOk {s t : State} (h : s.storesOk = true) (hm : s.mem.wf = true → t.mem.wf = true)
    (hr : t.regs = s.regs) (hx : t.rope.tx = s.rope.tx) (hy : t.rope.rx = s.rope.rx) (hc : t.twb.cbuf = s.twb.cbuf) :
    t.storesOk = true := by
  simp only [State.storesOk, hr, hx, hy, hc, Bool.and_eq_true] at h ⊢
  exact ⟨⟨⟨⟨hm h.1.1.1.1, h.1.1.1.2⟩, h.1.1.2⟩, h.1.2⟩, h.2⟩

theorem foldl_storesOk {α : Type} {f : State → α → State} {xs : List α} {s : State} (h : s.storesOk = true)
    (hf : ∀ s x, s.storesOk = true → (f s x).storesOk = true) : (xs.foldl f s).storesOk = true := by
  induction xs generalizing s with
  | nil => exact h
  | cons x xs ih => exact ih (hf s x h)

theorem mem_storesOk_of {s : State} (h : s.storesOk = true) : s.mem.wf = true := by
  simp only [State.storesOk, Bool.and_eq_true] at h; exact h.1.1.1.1

/-- A record update that leaves the stores alone. -/
theorem mk_storesOk {s : State} {pending : List Instr} {straps : Straps} {power : Power} {clock : Clock} {clk : ClkUnit} {regs : List (Nat ×
    Word)} {tickPend : List (Nat × Word)} {lay : Lay} {mem : Mem} {map : MapUnit} {cleat : Cleat} {events :
    EventTable} {splice : SpliceUnit} {loader : Loader} {xp : Xport} {reel : Vector Channel 8} {rope : Rope} {twb
    : Twb} {hal : Hal} {audio : Audio} {light : Light} {whip : Vector Whip 4} {tally : Tally} {rom : RomLay} {pins
    : Pins} {free : Nat}
    (h : s.storesOk = true) (hm : mem = s.mem) (hr : regs = s.regs)
    (hx : rope.tx = s.rope.tx) (hy : rope.rx = s.rope.rx) (hc : twb.cbuf = s.twb.cbuf) :
    (State.mk pending straps power clock clk regs tickPend lay mem map cleat events splice loader xp reel rope twb
      hal audio light whip tally rom pins free).storesOk = true := by
  subst hm hr; simp only [State.storesOk, hx, hy, hc]; exact h

/-- A record update that leaves the stores canonical. -/
theorem memMk_storesOk {s : State} {pending : List Instr} {straps : Straps} {power : Power} {clock : Clock} {clk : ClkUnit} {regs : List (Nat ×
    Word)} {tickPend : List (Nat × Word)} {lay : Lay} {mem : Mem} {map : MapUnit} {cleat : Cleat} {events :
    EventTable} {splice : SpliceUnit} {loader : Loader} {xp : Xport} {reel : Vector Channel 8} {rope : Rope} {twb
    : Twb} {hal : Hal} {audio : Audio} {light : Light} {whip : Vector Whip 4} {tally : Tally} {rom : RomLay} {pins
    : Pins} {free : Nat}
    (h : s.storesOk = true) (hm : s.mem.wf = true → mem.wf = true) (hr : regs = s.regs)
    (hx : rope.tx = s.rope.tx) (hy : rope.rx = s.rope.rx) (hc : twb.cbuf = s.twb.cbuf) :
    (State.mk pending straps power clock clk regs tickPend lay mem map cleat events splice loader xp reel rope twb
      hal audio light whip tally rom pins free).storesOk = true :=
  mem_storesOk h hm hr hx hy hc

@[simp] theorem eccClear_wf {m : Mem} {r : RamId} {a : Nat} : (eccClear m r a).wf = m.wf := rfl

/-- The clauses of the canonical form of the RAMs. -/
theorem memWf_iff {m : Mem} : m.wf = true ↔ (swf zero m.prog0 = true ∧ swf zero m.prog1 = true ∧ swf zero m.table0 = true
    ∧ swf zero m.table1 = true ∧ swf zero m.deck = true ∧ swf zero m.line = true ∧ swf zero m.strand = true
    ∧ swf zero m.port = true ∧ swf (Config.extByte m.epoch) m.ext = true) := by
  simp only [Mem.wf, Bool.and_eq_true, and_assoc]

/-- Every next state that an outcome answers has canonical stores. -/
def NextOk (o : Host.Outcome State Fault Refusal) : Prop := ∀ t, o = .next t → t.storesOk = true

theorem nextOk_next {s : State} (h : s.storesOk = true) : NextOk (.next s) := fun _ e => by cases e; exact h

theorem nextOk_ite {c : Prop} [Decidable c] {x y : Host.Outcome State Fault Refusal} (hx : NextOk x) (hy : NextOk y) :
    NextOk (if c then x else y) := by split <;> assumption

/-! ### Accesses -/

/-- An access keeps the stores canonical, whether it goes on or stops, and what it answers has P. -/
def KeepsTo {α : Type} (P : α → Prop) (x : Run α) : Prop :=
  ∀ w : Work, w.st.storesOk = true →
    (x.run.run w).2.st.storesOk = true ∧ ∀ a, (x.run.run w).1 = .ok a → P a

/-- An access keeps the stores canonical. -/
abbrev Keeps {α : Type} (x : Run α) : Prop := KeepsTo (fun _ => True) x

/-- What an instruction does once its operands are resolved keeps the stores canonical. -/
def KeepsEffect (e : Effect) : Prop := ∀ s, s.storesOk = true → (e s).1.storesOk = true

theorem keepsEffect_intro {e : Effect} (h : ∀ s, s.storesOk = true → (e s).1.storesOk = true) : KeepsEffect e := h

variable {α β : Type} {P : α → Prop}

theorem run_bind (x : Run β) (f : β → Run α) (w : Work) :
    (x >>= f).run.run w = match x.run.run w with
      | (.ok a, w') => (f a).run.run w'
      | (.error e, w') => (.error e, w') := by
  rcases h : x.run.run w with ⟨r, w'⟩
  simp only [ExceptT.run_bind, StateT.run_bind, h]
  cases r <;> rfl

theorem keeps_pure {a : α} (h : P a) : KeepsTo P (pure a : Run α) :=
  fun _ hw => ⟨hw, fun _ e => by cases e; exact h⟩

theorem keeps_throw {e : Stop} : KeepsTo P (throw e : Run α) := fun _ hw => ⟨hw, nofun⟩

theorem keeps_stopWith {code : FaultCode} {d : Nat} {va : Option Nat} : KeepsTo P (stopWith code d va : Run α) :=
  fun _ hw => ⟨hw, nofun⟩

theorem keeps_bind {x : Run β} {f : β → Run α} (hx : Keeps x) (hf : ∀ a, KeepsTo P (f a)) :
    KeepsTo P (x >>= f) := by
  intro w hw
  have h1 := hx w hw
  rw [run_bind]
  rcases h : x.run.run w with ⟨r, w'⟩
  rw [h] at h1
  cases r
  · exact ⟨h1.1, nofun⟩
  · exact hf _ w' h1.1

theorem keeps_bindTo {Q : β → Prop} {x : Run β} {f : β → Run α} (hx : KeepsTo Q x) (hf : ∀ a, Q a → KeepsTo P (f a)) :
    KeepsTo P (x >>= f) := by
  intro w hw
  have h1 := hx w hw
  rw [run_bind]
  rcases h : x.run.run w with ⟨r, w'⟩
  rw [h] at h1
  cases r
  · exact ⟨h1.1, nofun⟩
  · exact hf _ (h1.2 _ rfl) w' h1.1

theorem keeps_ite {c : Prop} [Decidable c] {x y : Run α} (hx : KeepsTo P x) (hy : KeepsTo P y) :
    KeepsTo P (if c then x else y) := by split <;> assumption

theorem keeps_readSt {f : State → Run α} (h : ∀ s, s.storesOk = true → KeepsTo P (f s)) :
    KeepsTo P (readSt >>= f) := by
  intro w hw
  rw [run_bind]; exact h _ hw w hw

theorem keeps_get {f : Work → Run α} (h : ∀ w, w.st.storesOk = true → KeepsTo P (f w)) : KeepsTo P (get >>= f) := by
  intro w hw
  rw [run_bind]; exact h _ hw w hw

theorem keeps_modifySt {f : State → State} (h : ∀ s, s.storesOk = true → (f s).storesOk = true) :
    Keeps (modifySt f) := fun _ hw => ⟨h _ hw, fun _ _ => trivial⟩

theorem keeps_modify {f : Work → Work} (h : ∀ w, w.st.storesOk = true → (f w).st.storesOk = true) :
    Keeps (modify f : Run Unit) := fun _ hw => ⟨h _ hw, fun _ _ => trivial⟩

theorem keeps_set {w' : Work} (h : w'.st.storesOk = true) : Keeps (set w' : Run Unit) :=
  fun _ _ => ⟨h, fun _ _ => trivial⟩

end Sys2Proof.Machine
end

