-- ==== Sys2Proof/Laws/Issue.lean ====
section
/-! SUPPORT. What issuing an instruction does, once for each way its accesses can end: it runs, it is annulled, or the
Lay stops at the fence (R429, R431, R43). -/

namespace Sys2Proof.Machine

section runs

variable {α β : Type} {x : Run β} {f : β → Run α} {w w1 w2 : Work} {a : α} {b : β} {e : Stop}

theorem run_pure : (pure a : Run α).run.run w = (.ok a, w) := rfl

theorem run_readSt : readSt.run.run w = (.ok w.st, w) := rfl

theorem run_get : (get : Run Work).run.run w = (.ok w, w) := rfl

theorem run_modify {f : Work → Work} : (modify f : Run Unit).run.run w = (.ok (), f w) := rfl

theorem run_stopWith {code : FaultCode} {d : Nat} {va : Option Nat} :
    (stopWith code d va : Run α).run.run w = (.error (.fault code (BitVec.ofNat 32 d) va), w) := rfl

/-- An access that went on hands its answer to the next. -/
theorem run_bind_ok (h : x.run.run w = (.ok b, w1)) : (x >>= f).run.run w = (f b).run.run w1 := by rw [run_bind, h]

/-- An access that stopped stops the rest. -/
theorem run_bind_error (h : x.run.run w = (.error e, w1)) : (x >>= f).run.run w = (.error e, w1) := by rw [run_bind, h]

/-- Accesses that ran to the end ran one after the other. -/
theorem run_bind_inv (h : (x >>= f).run.run w = (.ok a, w2)) :
    ∃ b w1, x.run.run w = (.ok b, w1) ∧ (f b).run.run w1 = (.ok a, w2) := by
  rw [run_bind] at h
  rcases hx : x.run.run w with ⟨r, w'⟩
  rw [hx] at h
  cases r with
  | error e => cases h
  | ok b => exact ⟨b, w', rfl, h⟩

theorem run_require {opc : Nat} {i : Form} : (require opc i true).run.run w = (.ok (), w) := rfl

theorem run_require_not {opc : Nat} {i : Form} :
    (require opc i false).run.run w = (.error (.fault .illegalOp (BitVec.ofNat 32 (firstWord opc i).toNat) none), w) := rfl

/-- A word without an error passes its check. -/
theorem run_checkEcc {r : RamId} {n : Nat} (h : eccAt w.st.mem r n = none) : (checkEcc r n).run.run w = (.ok (), w) := by
  have : eccRead w.st r n = (false, w.st) := by simp [eccRead, h]
  unfold checkEcc
  rw [run_bind_ok run_readSt, this]
  simp only [h]
  rfl

/-- The Lay's read of an external memory that its slots leave room for: 40 slots are stalled and charged, and the read is late
or not (R299, R305, R593). -/
theorem run_layExtRead {d lo hi : Nat} {late : Bool} {s : State} (room : 40 ≤ stallRoom w.st true w.stall)
    (h : (let o := readOwn (chargeWalk w.st 40) d lo hi
          layLate o.2 d o.1) = (late, s)) :
    (layExtRead d lo hi).run.run w = (.ok (late || w.silent), { w with st := s, stall := w.stall + 40 }) := by
  have hs : (stallFor true 40).run.run w = (.ok (), { w with st := chargeWalk w.st 40, stall := w.stall + 40 }) := by
    have hn : ¬stallRoom w.st true w.stall < 40 := by omega
    have hm : min 40 (stallRoom w.st true w.stall) = 40 := by omega
    unfold stallFor
    rw [run_bind_ok run_get]
    simp only [hm, if_neg hn, if_true]
    rfl
  unfold layExtRead
  rw [run_bind_ok hs]
  simp only at h
  rw [run_bind_ok run_get]
  simp only [h]
  rfl

/-- A read of an external page that is not refused makes its access, the page counted as read (R305). -/
theorem run_pageLoc_read {lay wr : Bool} {dev pack page va : Nat} {w' : Work}
    (free : extRefusal w.st dev (page * 4096 + va % 4096 * pack) pack = none) (first : w.pages = [])
    (pays : lay = true → 40 ≤ w.st.map.allowance)
    (h : (extRead lay dev (page * 4096) pack 12 va).run.run { w with pages := [(dev, page)] } = (.ok (), w')) :
    (pageLoc lay .read (.ext wr dev pack page) va).run.run w = (.ok (.ext dev (page * 4096 + va % 4096 * pack) pack), w') := by
  have hp : (lay && decide (w.st.map.allowance < 40)) = false := by
    cases lay
    · rfl
    · have := pays rfl; simp; omega
  unfold pageLoc
  simp only [Use.writes, Use.reads, Bool.false_and, Bool.false_eq_true, if_false]
  rw [run_bind_ok run_readSt]
  simp only [free, if_true]
  rw [run_bind_ok run_get]
  simp only [first, List.any_nil, Bool.not_false, if_true, hp, Bool.false_eq_true, if_false]
  rw [run_bind_ok run_modify]
  simp only [first]
  rw [run_bind_ok h]
  rfl

end runs

variable {s : State} {lay : Bool} {mk : Bool → Ctx → Issue} {w : Work} {eff : Effect} {len : Nat}

/-- The slot in which the instruction would issue is one of its context's (R43, R27). -/
def InTime (lay : Bool) (w : Work) : Prop :=
  (passSlots w.st w.stall).clock.slot < slotLimit (passSlots w.st w.stall) lay

theorem inTime_iff : decide ((passSlots w.st w.stall).clock.slot ≥ slotLimit (passSlots w.st w.stall) lay) = false ↔
    InTime lay w := by simp [InTime]

/-- What the frame tick brought is carried out before any context has its turn (R22). -/
theorem tickEdge_of_turn (turn : issuer s = some lay) : tickEdge s = s := by
  have h : tickDue s = false := by
    by_contra hd
    simp only [Bool.not_eq_false] at hd
    simp [issuer, hd] at turn
  simp only [tickDue, Bool.or_eq_false_iff] at h
  obtain ⟨⟨⟨h1, h2⟩, h3⟩, -⟩ := h
  have hc : holdCarry s = s := by simp [holdCarry, h1]
  simp [tickEdge, lightTick, quiesceLeave, hc, h2, h3]

/-- An instruction whose accesses ran to the end has its effect, and control flow moves on. -/
theorem issue_runs (turn : issuer s = some lay) (hlen : (mk lay (ctxOf s lay)).len = len)
    (whole : ¬(len = 2 ∧ (ctxOf s lay).pc = 0x1FFF)) (early : InTime lay w)
    (runs : (do fetchCheck lay len; (mk lay (ctxOf s lay)).plan : Run Effect).run.run { st := s, stall := 0 } = (.ok eff, w)) :
    issue s mk = finish (eff (passSlots w.st w.stall)).1 lay len (eff (passSlots w.st w.stall)).2 := by
  have hw : (len == 2 && (ctxOf s lay).pc == 0x1FFF) = false := by
    simpa [Bool.and_eq_false_iff] using whole
  obtain ⟨u, w1, hf, hp⟩ := run_bind_inv runs
  have he := inTime_iff.mpr early
  simp only [issue, tickEdge_of_turn turn, turn]
  rw [hlen, hw]
  simp only [Bool.false_eq_true, if_false]
  rw [run_bind_ok hf, hp]
  simp only [decide_eq_false_iff_not] at he
  simp only [he, if_false]

/-- An instruction whose accesses ended with a fault is annulled (R431). -/
theorem issue_annuls {code : FaultCode} {d : Word} {va : Option Nat} (turn : issuer s = some lay)
    (hlen : (mk lay (ctxOf s lay)).len = len) (whole : ¬(len = 2 ∧ (ctxOf s lay).pc = 0x1FFF)) (early : InTime lay w)
    (runs : (do fetchCheck lay len; (mk lay (ctxOf s lay)).plan : Run Effect).run.run { st := s, stall := 0 }
      = (.error (.fault code d va), w)) :
    issue s mk = annul (passSlots w.st w.stall) lay len code d va := by
  have hw : (len == 2 && (ctxOf s lay).pc == 0x1FFF) = false := by
    simpa [Bool.and_eq_false_iff] using whole
  have he := inTime_iff.mpr early
  simp only [issue, tickEdge_of_turn turn, turn]
  rw [hlen, hw]
  simp only [Bool.false_eq_true, if_false]
  rw [runs]
  simp only [decide_eq_false_iff_not] at he
  simp only [he, if_false]

end Sys2Proof.Machine
end

