-- ==== Sys2Proof/Laws/KeepCore.lean ====
section
/-! SUPPORT. That the shared operations, core clocks, straps, images, splices, clocks and external memories
keep the stores canonical: one lemma for each operation. -/

set_option linter.unusedTactic false
set_option linter.unreachableTactic false
set_option linter.unusedVariables false

namespace Sys2Proof.Machine

theorem pinSettle_storesOk {s : State} (hok : s.storesOk = true) : (pinSettle s).storesOk = true := by
  unfold pinSettle
  try dsimp only
  repeat' first
    | with_reducible first
      | assumption | apply ite_storesOk | apply setB_storesOk
      | fail_if_no_progress refine mk_storesOk ?_ rfl rfl rfl rfl rfl
    | fail_if_no_progress dsimp only | split

theorem postEvent_storesOk {s : State} {e : Nat} {f : Cell → Cell} (hok : s.storesOk = true) :
    (postEvent s e f).storesOk = true := by
  unfold postEvent
  try dsimp only
  repeat' first
    | with_reducible first
      | assumption | apply ite_storesOk | apply setB_storesOk
      | fail_if_no_progress refine mk_storesOk ?_ rfl rfl rfl rfl rfl
    | fail_if_no_progress dsimp only | split

theorem sysEvent_storesOk {s : State} {k : Nat} (hok : s.storesOk = true) : (sysEvent s k).storesOk = true := by
  unfold sysEvent
  try dsimp only
  repeat' first
    | with_reducible first
      | assumption | apply ite_storesOk | apply setB_storesOk | apply postEvent_storesOk
    | fail_if_no_progress dsimp only | split

theorem logEnter_storesOk {s : State} {it : LogItem} (hok : s.storesOk = true) : (logEnter s it).storesOk = true := by
  unfold logEnter
  try dsimp only
  repeat' first
    | with_reducible first
      | assumption | apply ite_storesOk | apply countUp_storesOk | apply setReg_storesOk | apply setF_storesOk
      | apply pinSettle_storesOk | apply sysEvent_storesOk | apply setB_storesOk
      | fail_if_no_progress refine mk_storesOk ?_ rfl rfl rfl rfl rfl
    | fail_if_no_progress dsimp only | split

theorem logDrop_storesOk {s : State} (hok : s.storesOk = true) : (logDrop s).storesOk = true := by
  unfold logDrop
  try dsimp only
  repeat' first
    | with_reducible first
      | assumption | apply ite_storesOk | apply setB_storesOk | apply countUp_storesOk
    | fail_if_no_progress dsimp only | split

theorem logPush_storesOk {s : State} {it : LogItem} (hok : s.storesOk = true) : (logPush s it).storesOk = true := by
  unfold logPush
  try dsimp only
  repeat' first
    | with_reducible first
      | assumption | apply ite_storesOk | apply logDrop_storesOk
      | fail_if_no_progress refine mk_storesOk ?_ rfl rfl rfl rfl rfl
    | fail_if_no_progress dsimp only | split

theorem logHw_storesOk {s : State} {code : FaultCode} {detail : Word} (hok : s.storesOk = true) :
    (logHw s code detail).storesOk = true := by
  unfold logHw
  try dsimp only
  repeat' first
    | with_reducible first
      | assumption | apply ite_storesOk | apply logPush_storesOk
    | fail_if_no_progress dsimp only | split

theorem enterMode_storesOk {s : State} {m : Mode} (hok : s.storesOk = true) : (enterMode s m).storesOk = true := by
  unfold enterMode
  try dsimp only
  repeat' first
    | with_reducible first
      | assumption | apply ite_storesOk | apply pinSettle_storesOk | apply sysEvent_storesOk
      | fail_if_no_progress refine mk_storesOk ?_ rfl rfl rfl rfl rfl
    | fail_if_no_progress dsimp only | split

theorem storeCommit_storesOk {s : State} (h : s.storesOk = true) : (storeCommit s).storesOk = true := by
  unfold storeCommit
  split
  · exact h
  · refine memMk_storesOk h ?_ rfl rfl rfl rfl
    simp only [memWf_iff]; intro hm; simp_all [swf_sput]

theorem logStep_storesOk {s : State} (hok : s.storesOk = true) : (logStep s).storesOk = true := by
  unfold logStep
  try dsimp only
  repeat' first
    | with_reducible first
      | assumption | apply ite_storesOk | apply logDrop_storesOk | apply logEnter_storesOk
      | fail_if_no_progress refine mk_storesOk ?_ rfl rfl rfl rfl rfl
    | fail_if_no_progress dsimp only | split

theorem takeFree_storesOk {s : State} (hok : s.storesOk = true) : (takeFree s).2.storesOk = true := by
  unfold takeFree
  try dsimp only
  repeat' first
    | with_reducible first
      | assumption | apply ite_storesOk | fail_if_no_progress refine mk_storesOk ?_ rfl rfl rfl rfl rfl
    | fail_if_no_progress dsimp only | split

theorem takeFree_storesOk' {s : State} {t0 : State} {y0 : Nat} (he : takeFree s = (y0, t0)) (hok : s.storesOk = true) :
    t0.storesOk = true := by
  have := takeFree_storesOk (s := s) hok
  rwa [he] at this

theorem raiseFlag_storesOk {s : State} {r : Nat} {n : Nat} {k : Nat} (hok : s.storesOk = true) :
    (raiseFlag s r n k).storesOk = true := by
  unfold raiseFlag
  try dsimp only
  repeat' first
    | with_reducible first
      | assumption | apply ite_storesOk | apply sysEvent_storesOk | apply setB_storesOk
    | fail_if_no_progress dsimp only | split

theorem whipCompareNow_storesOk {s : State} {u : Nat} (hok : s.storesOk = true) :
    (whipCompareNow s u).storesOk = true := by
  unfold whipCompareNow
  try dsimp only
  repeat' first
    | with_reducible first
      | assumption | apply ite_storesOk | apply setWhip_storesOk | apply setB_storesOk | apply sysEvent_storesOk
      | apply countUp_storesOk | apply postEvent_storesOk | apply logHw_storesOk | apply pinSettle_storesOk
      | fail_if_no_progress refine mk_storesOk ?_ rfl rfl rfl rfl rfl
    | fail_if_no_progress dsimp only | split

theorem whipClock_storesOk {s : State} {u : Nat} (hok : s.storesOk = true) : (whipClock s u).storesOk = true := by
  unfold whipClock
  try dsimp only
  repeat' first
    | with_reducible first
      | assumption | apply ite_storesOk | apply setWhip_storesOk | apply whipCompareNow_storesOk
      | fail_if_no_progress refine mk_storesOk ?_ rfl rfl rfl rfl rfl
    | fail_if_no_progress dsimp only | split

theorem backfillFound_storesOk {s : State} {e : EccError} (h : s.storesOk = true) :
    (backfillFound s e).storesOk = true := by
  unfold backfillFound
  split
  · exact logHw_storesOk (setB_storesOk h)
  · exact setB_storesOk (countUp_storesOk (mem_storesOk h (fun hm => hm) rfl rfl rfl rfl))

theorem backfillStep_storesOk {s : State} (hok : s.storesOk = true) :
    (backfillStep s).storesOk = true := by
  unfold backfillStep
  try dsimp only
  repeat' first
    | with_reducible first
      | assumption | apply ite_storesOk | apply backfillFound_storesOk | refine foldl_storesOk ?_ (fun s x h => ?_)
    | fail_if_no_progress dsimp only | split

theorem passClock_storesOk {s : State} (hok : s.storesOk = true) : (passClock s).storesOk = true := by
  unfold passClock
  try dsimp only
  repeat' first
    | with_reducible first
      | assumption | apply ite_storesOk | apply storeCommit_storesOk | apply logStep_storesOk
      | apply backfillStep_storesOk | apply whipClock_storesOk | refine foldl_storesOk ?_ (fun s x h => ?_)
      | fail_if_no_progress refine mk_storesOk ?_ rfl rfl rfl rfl rfl
    | fail_if_no_progress dsimp only | split

theorem passClocks_storesOk {n : Nat} {s : State} (h : s.storesOk = true) : (passClocks s n).storesOk = true := by
  induction n generalizing s with
  | zero => exact h
  | succ n ih => exact ih (passClock_storesOk h)

theorem passSlots_storesOk {s : State} {n : Nat} (hok : s.storesOk = true) : (passSlots s n).storesOk = true := by
  unfold passSlots
  try dsimp only
  repeat' first
    | with_reducible first
      | assumption | apply ite_storesOk | apply passClocks_storesOk
      | fail_if_no_progress refine mk_storesOk ?_ rfl rfl rfl rfl rfl
    | fail_if_no_progress dsimp only | split

theorem tallySample_storesOk {s : State} {qty : Nat} {arg : Nat} {all : Bool} {v : Int} (hok : s.storesOk = true) :
    (tallySample s qty arg all v).storesOk = true := by
  unfold tallySample
  try dsimp only
  repeat' first
    | with_reducible first
      | assumption | apply ite_storesOk | fail_if_no_progress refine mk_storesOk ?_ rfl rfl rfl rfl rfl
    | fail_if_no_progress dsimp only | split

theorem spliceHeard_storesOk {s : State} {src : Source} (hok : s.storesOk = true) :
    (spliceHeard s src).storesOk = true := by
  unfold spliceHeard
  try dsimp only
  repeat' first
    | with_reducible first
      | assumption | apply ite_storesOk | fail_if_no_progress refine mk_storesOk ?_ rfl rfl rfl rfl rfl
    | fail_if_no_progress dsimp only | split

theorem stageMark_storesOk {s : State} {index : Nat} (hok : s.storesOk = true) :
    (stageMark s index).storesOk = true := by
  unfold stageMark
  try dsimp only
  repeat' first
    | with_reducible first
      | assumption | apply ite_storesOk | apply setB_storesOk
      | fail_if_no_progress refine mk_storesOk ?_ rfl rfl rfl rfl rfl
    | fail_if_no_progress dsimp only | split

theorem clearEcc_storesOk {s : State} {r : RamId} {a : Nat} (h : s.storesOk = true) : (clearEcc s r a).storesOk = true :=
  mem_storesOk h (fun hm => hm) rfl rfl rfl rfl

theorem setShadowTable_storesOk {s : State} {m : List (Nat × Cell)} (hw : swf zero m = true) (h : s.storesOk = true) :
    (setShadowTable s m).storesOk = true := by
  unfold setShadowTable
  refine memMk_storesOk h (fun hm => ?_) rfl rfl rfl rfl
  rw [memWf_iff] at hm ⊢; split <;> simp_all

theorem setShadowProg_storesOk {s : State} {m : List (Nat × Word)} (hw : swf zero m = true) (h : s.storesOk = true) :
    (setShadowProg s m).storesOk = true := by
  unfold setShadowProg
  refine memMk_storesOk h (fun hm => ?_) rfl rfl rfl rfl
  rw [memWf_iff] at hm ⊢; split <;> simp_all

theorem setShadowGains_storesOk {s : State} {v : Vector Cell 16} (hok : s.storesOk = true) :
    (setShadowGains s v).storesOk = true := by
  unfold setShadowGains
  try dsimp only
  repeat' first
    | with_reducible first
      | assumption | apply ite_storesOk | fail_if_no_progress refine mk_storesOk ?_ rfl rfl rfl rfl rfl
    | fail_if_no_progress dsimp only | split

theorem activeTable_wf {s : State} (h : s.storesOk = true) : swf zero (activeTable s) = true := by
  have := memWf_iff.1 (mem_storesOk_of h); unfold activeTable; split <;> simp_all

theorem shadowTable_wf {s : State} (h : s.storesOk = true) : swf zero (shadowTable s) = true := by
  have := memWf_iff.1 (mem_storesOk_of h); unfold shadowTable; split <;> simp_all

theorem activeProg_wf {s : State} (h : s.storesOk = true) : swf zero (activeProg s) = true := by
  have := memWf_iff.1 (mem_storesOk_of h); unfold activeProg; split <;> simp_all

theorem shadowProg_wf {s : State} (h : s.storesOk = true) : swf zero (shadowProg s) = true := by
  have := memWf_iff.1 (mem_storesOk_of h); unfold shadowProg; split <;> simp_all

theorem stageStore_storesOk {s : State} {space : Nat} {index : Nat} {v : Word} (h : s.storesOk = true) :
    (stageStore s space index v).storesOk = true := by
  unfold stageStore
  split
  · exact stageMark_storesOk (clearEcc_storesOk (setShadowTable_storesOk (swf_sput (shadowTable_wf h)) h))
  · exact mk_storesOk (clearEcc_storesOk (setShadowProg_storesOk (swf_sput (shadowProg_wf h)) h)) rfl rfl rfl rfl rfl
  · exact setShadowGains_storesOk h

theorem gainsChange_storesOk {s0 s : State} (h : s.storesOk = true) : (gainsChange s0 s).storesOk = true := by
  unfold gainsChange
  try dsimp only
  repeat' first
    | with_reducible first
      | assumption | apply ite_storesOk | refine foldl_storesOk ?_ (fun s x h => ?_)
      | fail_if_no_progress refine mk_storesOk ?_ rfl rfl rfl rfl rfl
    | fail_if_no_progress dsimp only | split

theorem spliceDiscard_storesOk {s : State} (hok : s.storesOk = true) : (spliceDiscard s).storesOk = true := by
  unfold spliceDiscard
  try dsimp only
  repeat' first
    | with_reducible first
      | assumption | apply ite_storesOk | fail_if_no_progress refine mk_storesOk ?_ rfl rfl rfl rfl rfl
    | fail_if_no_progress dsimp only | split

theorem spliceFire_storesOk {s0 : State} (hok : s0.storesOk = true) : (spliceFire s0).storesOk = true := by
  unfold spliceFire
  try dsimp only
  repeat' first
    | with_reducible first
      | assumption | apply ite_storesOk | apply gainsChange_storesOk | apply sysEvent_storesOk
      | apply setB_storesOk | apply countUp_storesOk | apply spliceDiscard_storesOk
      | fail_if_no_progress refine mk_storesOk ?_ rfl rfl rfl rfl rfl
    | fail_if_no_progress dsimp only | split

theorem glideStep_storesOk {s : State} (hok : s.storesOk = true) : (glideStep s).storesOk = true := by
  unfold glideStep
  try dsimp only
  repeat' first
    | with_reducible first
      | assumption | apply ite_storesOk | fail_if_no_progress refine mk_storesOk ?_ rfl rfl rfl rfl rfl
    | fail_if_no_progress dsimp only | split

theorem spliceTick_storesOk {s : State} (hok : s.storesOk = true) : (spliceTick s).storesOk = true := by
  unfold spliceTick
  try dsimp only
  repeat' first
    | with_reducible first
      | assumption | apply ite_storesOk | apply spliceFire_storesOk | apply glideStep_storesOk
    | fail_if_no_progress dsimp only | split

theorem backfillEcc_storesOk {s : State} {act sha : RamId} (h : s.storesOk = true) :
    (backfillEcc s act sha).storesOk = true := mem_storesOk h (fun hm => hm) rfl rfl rfl rfl

theorem backfillRest_storesOk {s : State} (hok : s.storesOk = true) :
    (backfillRest s).storesOk = true := by
  unfold backfillRest
  try dsimp only
  repeat' first
    | with_reducible first
      | assumption | apply ite_storesOk | apply logStep_storesOk | apply backfillFound_storesOk
      | refine foldl_storesOk ?_ (fun s x h => ?_)
    | fail_if_no_progress dsimp only | split

theorem backfillDone_storesOk {s : State} (h : s.storesOk = true) : (backfillDone s).storesOk = true := by
  unfold backfillDone
  have h := backfillRest_storesOk h
  refine mk_storesOk (s := _) (backfillEcc_storesOk (backfillEcc_storesOk (setShadowGains_storesOk
    (setShadowProg_storesOk ?_ ?_)))) rfl rfl rfl rfl rfl
  · exact activeProg_wf (setShadowTable_storesOk (activeTable_wf h) h)
  · exact setShadowTable_storesOk (activeTable_wf h) h

theorem spliceRefuse_storesOk {s : State} {flag : Nat} (hok : s.storesOk = true) :
    (spliceRefuse s flag).storesOk = true := by
  unfold spliceRefuse
  try dsimp only
  repeat' first
    | with_reducible first
      | assumption | apply ite_storesOk | apply setB_storesOk
    | fail_if_no_progress dsimp only | split

theorem spliceClaim_storesOk {s : State} {src : Source} (hok : s.storesOk = true) :
    (spliceClaim s src).storesOk = true := by
  unfold spliceClaim
  try dsimp only
  repeat' first
    | with_reducible first
      | assumption | apply ite_storesOk | fail_if_no_progress refine mk_storesOk ?_ rfl rfl rfl rfl rfl
    | fail_if_no_progress dsimp only | split

theorem commitWrite_storesOk {s : State} {src : Source} {frame : Word} (hok : s.storesOk = true) :
    (commitWrite s src frame).1.storesOk = true := by
  unfold commitWrite
  try dsimp only
  repeat' first
    | with_reducible first
      | assumption | apply ite_storesOk | apply spliceRefuse_storesOk | apply sysEvent_storesOk
      | apply setB_storesOk | apply logPush_storesOk | apply spliceHeard_storesOk | apply spliceClaim_storesOk
      | apply setReg_storesOk | fail_if_no_progress refine mk_storesOk ?_ rfl rfl rfl rfl rfl
    | fail_if_no_progress dsimp only | split

theorem commitWrite_storesOk' {s : State} {src : Source} {frame : Word} {t0 : State}
    {y0 : Bool} (he : commitWrite s src frame = (t0, y0)) (hok : s.storesOk = true) :
    t0.storesOk = true := by
  have := commitWrite_storesOk (s := s) (src := src) (frame := frame) hok
  rwa [he] at this

theorem stageDataWrite_storesOk {s : State} {src : Source} {v : Word} (hok : s.storesOk = true) :
    (stageDataWrite s src v).1.storesOk = true := by
  unfold stageDataWrite
  try dsimp only
  repeat' first
    | with_reducible first
      | assumption | apply ite_storesOk | apply stageStore_storesOk | apply spliceClaim_storesOk
      | apply setF_storesOk | apply spliceRefuse_storesOk
    | fail_if_no_progress dsimp only | split

theorem stageDataWrite_storesOk' {s : State} {src : Source} {v : Word} {t0 : State}
    {y0 : Bool} (he : stageDataWrite s src v = (t0, y0)) (hok : s.storesOk = true) :
    t0.storesOk = true := by
  have := stageDataWrite_storesOk (s := s) (src := src) (v := v) hok
  rwa [he] at this

theorem execBackfillComplete_nextOk {s : State} (hok : s.storesOk = true) : NextOk (execBackfillComplete s) := by
  unfold execBackfillComplete
  try dsimp only
  repeat' first
    | with_reducible first
      | assumption | apply ite_storesOk | refine nextOk_next ?_ | apply nextOk_ite | apply backfillDone_storesOk
    | fail_if_no_progress dsimp only | split

theorem gainsTick_storesOk {s : State} {samples : List Cell} (hok : s.storesOk = true) :
    (gainsTick s samples).storesOk = true := by
  unfold gainsTick
  try dsimp only
  repeat' first
    | with_reducible first
      | assumption | apply ite_storesOk | apply setB_storesOk | refine foldl_storesOk ?_ (fun s x h => ?_)
      | fail_if_no_progress refine mk_storesOk ?_ rfl rfl rfl rfl rfl
    | fail_if_no_progress dsimp only | split

theorem execOwnershipLapse_nextOk {s : State} (hok : s.storesOk = true) : NextOk (execOwnershipLapse s) := by
  unfold execOwnershipLapse
  try dsimp only
  repeat' first
    | with_reducible first
      | assumption | apply ite_storesOk | refine nextOk_next ?_ | apply nextOk_ite | apply setB_storesOk
      | apply spliceDiscard_storesOk
    | fail_if_no_progress dsimp only | split

theorem spliceCancel_storesOk {s : State} {src : Source} (hok : s.storesOk = true) :
    (spliceCancel s src).1.storesOk = true := by
  unfold spliceCancel
  try dsimp only
  repeat' first
    | with_reducible first
      | assumption | apply ite_storesOk | apply spliceDiscard_storesOk | apply setReg_storesOk
      | apply spliceRefuse_storesOk
    | fail_if_no_progress dsimp only | split

theorem spliceCancel_storesOk' {s : State} {src : Source} {t0 : State}
    {y0 : Bool} (he : spliceCancel s src = (t0, y0)) (hok : s.storesOk = true) :
    t0.storesOk = true := by
  have := spliceCancel_storesOk (s := s) (src := src) hok
  rwa [he] at this

theorem stagePtrWrite_storesOk {s : State} {src : Source} {v : Word} (hok : s.storesOk = true) :
    (stagePtrWrite s src v).1.storesOk = true := by
  unfold stagePtrWrite
  try dsimp only
  repeat' first
    | with_reducible first
      | assumption | apply ite_storesOk | apply spliceClaim_storesOk | apply setF_storesOk | apply setB_storesOk
      | apply spliceRefuse_storesOk
    | fail_if_no_progress dsimp only | split

theorem stagePtrWrite_storesOk' {s : State} {src : Source} {v : Word} {t0 : State}
    {y0 : Bool} (he : stagePtrWrite s src v = (t0, y0)) (hok : s.storesOk = true) :
    t0.storesOk = true := by
  have := stagePtrWrite_storesOk (s := s) (src := src) (v := v) hok
  rwa [he] at this

theorem execZcTimeout_nextOk {ch : Fin 16} {s : State} (hok : s.storesOk = true) : NextOk (execZcTimeout ch s) := by
  unfold execZcTimeout
  try dsimp only
  repeat' first
    | with_reducible first
      | assumption | apply ite_storesOk | refine nextOk_next ?_ | apply nextOk_ite
      | fail_if_no_progress refine mk_storesOk ?_ rfl rfl rfl rfl rfl
    | fail_if_no_progress dsimp only | split

theorem formPair_storesOk {s : State} {second : Nat} (hok : s.storesOk = true) :
    (formPair s second).storesOk = true := by
  unfold formPair
  try dsimp only
  repeat' first
    | with_reducible first
      | assumption | apply ite_storesOk | fail_if_no_progress refine mk_storesOk ?_ rfl rfl rfl rfl rfl
    | fail_if_no_progress dsimp only | split

theorem setPrimary_storesOk {s : State} {c : Nat} (hok : s.storesOk = true) : (setPrimary s c).storesOk = true := by
  unfold setPrimary
  try dsimp only
  repeat' first
    | with_reducible first
      | assumption | apply ite_storesOk | apply formPair_storesOk | apply setF_storesOk
      | fail_if_no_progress refine mk_storesOk ?_ rfl rfl rfl rfl rfl
    | fail_if_no_progress dsimp only | split

theorem noteSwitch_storesOk {s : State} (hok : s.storesOk = true) :
    (noteSwitch s).storesOk = true := by
  unfold noteSwitch
  try dsimp only
  repeat' first
    | with_reducible first
      | assumption | apply ite_storesOk | apply raiseFlag_storesOk | apply countUp_storesOk
    | fail_if_no_progress dsimp only | split

theorem changePrimary_storesOk {s : State} {c : Nat} (hok : s.storesOk = true) :
    (changePrimary s c).storesOk = true := by
  unfold changePrimary
  try dsimp only
  repeat' first
    | with_reducible first
      | assumption | apply ite_storesOk | apply setPrimary_storesOk | apply noteSwitch_storesOk
      | fail_if_no_progress refine mk_storesOk ?_ rfl rfl rfl rfl rfl
    | fail_if_no_progress dsimp only | split

theorem replacePrimary_storesOk {s : State} {gone : Nat} (hok : s.storesOk = true) :
    (replacePrimary s gone).storesOk = true := by
  unfold replacePrimary
  try dsimp only
  repeat' first
    | with_reducible first
      | assumption | apply ite_storesOk | apply changePrimary_storesOk | apply formPair_storesOk
      | fail_if_no_progress refine mk_storesOk ?_ rfl rfl rfl rfl rfl
    | fail_if_no_progress dsimp only | split

theorem chooseReference_storesOk {s : State} (hok : s.storesOk = true) : (chooseReference s).storesOk = true := by
  unfold chooseReference
  try dsimp only
  repeat' first
    | with_reducible first
      | assumption | apply ite_storesOk | apply setPrimary_storesOk
      | fail_if_no_progress refine mk_storesOk ?_ rfl rfl rfl rfl rfl
    | fail_if_no_progress dsimp only | split

theorem declareLost_storesOk {s : State} {c : Nat} {cause : Nat} (hok : s.storesOk = true) :
    (declareLost s c cause).storesOk = true := by
  unfold declareLost
  try dsimp only
  repeat' first
    | with_reducible first
      | assumption | apply ite_storesOk | apply raiseFlag_storesOk | apply logHw_storesOk
      | apply replacePrimary_storesOk | apply chooseReference_storesOk | apply formPair_storesOk
      | apply noteSwitch_storesOk | apply pinSettle_storesOk
      | fail_if_no_progress refine mk_storesOk ?_ rfl rfl rfl rfl rfl
    | fail_if_no_progress dsimp only | split

theorem disagree_storesOk {s : State} {cause : Nat} (hok : s.storesOk = true) : (disagree s cause).storesOk = true := by
  unfold disagree
  try dsimp only
  repeat' first
    | with_reducible first
      | assumption | apply ite_storesOk | apply declareLost_storesOk
    | fail_if_no_progress dsimp only | split

theorem driftEntered_storesOk {s : State} (hok : s.storesOk = true) : (driftEntered s).storesOk = true := by
  unfold driftEntered
  try dsimp only
  repeat' first
    | with_reducible first
      | assumption | apply ite_storesOk | apply logHw_storesOk | apply raiseFlag_storesOk
    | fail_if_no_progress dsimp only | split

theorem monitorDecide_storesOk {s : State} (hok : s.storesOk = true) : (monitorDecide s).storesOk = true := by
  unfold monitorDecide
  try dsimp only
  repeat' first
    | with_reducible first
      | assumption | apply ite_storesOk | apply disagree_storesOk | apply driftEntered_storesOk
      | fail_if_no_progress refine mk_storesOk ?_ rfl rfl rfl rfl rfl
    | fail_if_no_progress dsimp only | split

theorem countPasses_storesOk {s : State} {others : List (Nat × Int)} (hok : s.storesOk = true) :
    (countPasses s others).storesOk = true := by
  unfold countPasses
  try dsimp only
  repeat' first
    | with_reducible first
      | assumption | apply ite_storesOk | refine foldl_storesOk ?_ (fun s x h => ?_)
      | fail_if_no_progress refine mk_storesOk ?_ rfl rfl rfl rfl rfl
    | fail_if_no_progress dsimp only | split

theorem execMonitorWindowEnd_nextOk {dev : Int} {s0 : State} {others : List (Nat × Int)} (hok : s0.storesOk = true) : NextOk (execMonitorWindowEnd dev s0 others) := by
  unfold execMonitorWindowEnd
  try dsimp only
  repeat' first
    | with_reducible first
      | assumption | apply ite_storesOk | refine nextOk_next ?_ | apply nextOk_ite | apply countPasses_storesOk
      | apply monitorDecide_storesOk | fail_if_no_progress refine mk_storesOk ?_ rfl rfl rfl rfl rfl
    | fail_if_no_progress dsimp only | split

theorem nudgeClear_storesOk {s : State} (hok : s.storesOk = true) : (nudgeClear s).storesOk = true := by
  unfold nudgeClear
  try dsimp only
  repeat' first
    | with_reducible first
      | assumption | apply ite_storesOk | apply setF_storesOk
    | fail_if_no_progress dsimp only | split

theorem execReferenceQualified_nextOk {code : BitVec 3} {s : State} (hok : s.storesOk = true) :
    NextOk (execReferenceQualified code s) := by
  unfold execReferenceQualified
  try dsimp only
  repeat' first
    | with_reducible first
      | assumption | apply ite_storesOk | refine nextOk_next ?_ | apply nextOk_ite | apply chooseReference_storesOk
      | apply changePrimary_storesOk | apply formPair_storesOk
      | fail_if_no_progress refine mk_storesOk ?_ rfl rfl rfl rfl rfl
    | fail_if_no_progress dsimp only | split

theorem execPllSlewLock_nextOk {offset : Int} {s : State} (hok : s.storesOk = true) :
    NextOk (execPllSlewLock offset s) := by
  unfold execPllSlewLock
  try dsimp only
  repeat' first
    | with_reducible first
      | assumption | apply ite_storesOk | refine nextOk_next ?_ | apply nextOk_ite | apply nudgeClear_storesOk
      | fail_if_no_progress refine mk_storesOk ?_ rfl rfl rfl rfl rfl
    | fail_if_no_progress dsimp only | split

theorem execReferenceRevert_nextOk {code : BitVec 3} {s : State} (hok : s.storesOk = true) :
    NextOk (execReferenceRevert code s) := by
  unfold execReferenceRevert
  try dsimp only
  repeat' first
    | with_reducible first
      | assumption | apply ite_storesOk | refine nextOk_next ?_ | apply nextOk_ite | apply changePrimary_storesOk
    | fail_if_no_progress dsimp only | split

theorem orderWritten_storesOk {s : State} (hok : s.storesOk = true) : (orderWritten s).storesOk = true := by
  unfold orderWritten
  try dsimp only
  repeat' first
    | with_reducible first
      | assumption | apply ite_storesOk | apply changePrimary_storesOk | apply noteSwitch_storesOk
      | apply setPrimary_storesOk | apply chooseReference_storesOk | apply formPair_storesOk
      | fail_if_no_progress refine mk_storesOk ?_ rfl rfl rfl rfl rfl
    | fail_if_no_progress dsimp only | split

theorem alignStep_storesOk {s : State} (hok : s.storesOk = true) : (alignStep s).2.storesOk = true := by
  unfold alignStep
  try dsimp only
  repeat' first
    | with_reducible first
      | assumption | apply ite_storesOk | apply nudgeClear_storesOk
      | fail_if_no_progress refine mk_storesOk ?_ rfl rfl rfl rfl rfl
    | fail_if_no_progress dsimp only | split

theorem alignStep_storesOk' {s : State} {t0 : State}
    {y0 : Int} (he : alignStep s = (y0, t0)) (hok : s.storesOk = true) :
    t0.storesOk = true := by
  have := alignStep_storesOk (s := s) hok
  rwa [he] at this

theorem execSourceLost_nextOk {code : BitVec 3} {rc : Bool} {s : State} (hok : s.storesOk = true) :
    NextOk (execSourceLost code rc s) := by
  unfold execSourceLost
  try dsimp only
  repeat' first
    | with_reducible first
      | assumption | apply ite_storesOk | refine nextOk_next ?_ | apply nextOk_ite | apply declareLost_storesOk
      | fail_if_no_progress refine mk_storesOk ?_ rfl rfl rfl rfl rfl
    | fail_if_no_progress dsimp only | split

theorem extWrite_storesOk {s : State} {dev : Nat} {addr : Nat} {b : Byte} (h : s.storesOk = true) :
    (extWrite s dev addr b).storesOk = true := by
  refine mem_storesOk h (fun hm => ?_) rfl rfl rfl rfl
  rw [memWf_iff] at hm ⊢; simp_all [extWrite, swf_sput]

theorem setChan_storesOk {s : State} {n : Nat} {c : Channel} (h : s.storesOk = true) : (setChan s n c).storesOk = true := h

theorem reelPrune_storesOk {s : State} {ch : Nat} (hok : s.storesOk = true) : (reelPrune s ch).storesOk = true := by
  unfold reelPrune
  try dsimp only
  repeat' first
    | with_reducible first
      | assumption | apply ite_storesOk | apply setChan_storesOk
      | fail_if_no_progress refine mk_storesOk ?_ rfl rfl rfl rfl rfl
    | fail_if_no_progress dsimp only | split

theorem reelTouch_storesOk {s : State} {ch : Nat} {va : Nat} (hok : s.storesOk = true) :
    (reelTouch s ch va).storesOk = true := by
  unfold reelTouch
  try dsimp only
  repeat' first
    | with_reducible first
      | assumption | apply ite_storesOk | apply reelPrune_storesOk | apply setChan_storesOk
      | fail_if_no_progress refine mk_storesOk ?_ rfl rfl rfl rfl rfl
    | fail_if_no_progress dsimp only | split

theorem extStore_storesOk {s : State} {dev : Nat} {addr : Nat} {pack : Nat} {v : Cell} (hok : s.storesOk = true) :
    (extStore s dev addr pack v).storesOk = true := by
  unfold extStore
  try dsimp only
  repeat' first
    | with_reducible first
      | assumption | apply ite_storesOk | apply extWrite_storesOk | refine foldl_storesOk ?_ (fun s x h => ?_)
    | fail_if_no_progress dsimp only | split

theorem writePort_storesOk {s : State} {off : Nat} {v : Cell} (h : s.storesOk = true) :
    (writePort s off v).storesOk = true := by
  unfold writePort
  refine ite_storesOk (mem_storesOk h (fun hm => ?_) rfl rfl rfl rfl)
    (ite_storesOk (mem_storesOk h (fun hm => ?_) rfl rfl rfl rfl) h) <;>
  · rw [memWf_iff] at hm ⊢; simp_all [swf_sput]

theorem setPort_storesOk {s : State} {off : Nat} {v : Cell} (h : s.storesOk = true) : (setPort s off v).storesOk = true := by
  refine mem_storesOk h (fun hm => ?_) rfl rfl rfl rfl
  rw [memWf_iff] at hm ⊢; simp_all [setPort, swf_sput]

theorem extForget_storesOk {s : State} (h : s.storesOk = true) : (extForget s).storesOk = true := by
  refine mem_storesOk h (fun hm => ?_) rfl rfl rfl rfl
  rw [memWf_iff] at hm ⊢; simp_all [extForget]

theorem readOwn_storesOk {s : State} {d lo hi : Nat} (hok : s.storesOk = true) :
    (readOwn s d lo hi).2.storesOk = true := by
  unfold readOwn
  try dsimp only
  repeat' first
    | with_reducible first
      | assumption | apply ite_storesOk | apply takeFree_storesOk | refine takeFree_storesOk' (by assumption) ?_
    | fail_if_no_progress dsimp only | split

theorem readOwn_storesOk' {s : State} {d lo hi : Nat} {y0 : Nat} {t0 : State}
    (he : readOwn s d lo hi = (y0, t0)) (hok : s.storesOk = true) : t0.storesOk = true := by
  have := readOwn_storesOk (s := s) (d := d) (lo := lo) (hi := hi) hok
  rwa [he] at this

theorem layLate_storesOk {s : State} {d own : Nat} (hok : s.storesOk = true) :
    (layLate s d own).2.storesOk = true := by
  unfold layLate
  try dsimp only
  repeat' first
    | with_reducible first
      | assumption | apply ite_storesOk | apply takeFree_storesOk | refine takeFree_storesOk' (by assumption) ?_
    | fail_if_no_progress dsimp only | split

theorem layLate_storesOk' {s : State} {d own : Nat} {y0 : Bool} {t0 : State}
    (he : layLate s d own = (y0, t0)) (hok : s.storesOk = true) : t0.storesOk = true := by
  have := layLate_storesOk (s := s) (d := d) (own := own) hok
  rwa [he] at this

theorem slackRead_storesOk {s : State} {d addr lo hi now : Nat} {silent : Bool} (hok : s.storesOk = true) :
    (slackRead s d addr lo hi now silent).2.2.storesOk = true := by
  unfold slackRead
  try dsimp only
  repeat' first
    | with_reducible first
      | assumption | apply ite_storesOk | apply readOwn_storesOk | refine readOwn_storesOk' (by assumption) ?_
      | apply takeFree_storesOk | refine takeFree_storesOk' (by assumption) ?_
      | fail_if_no_progress refine mk_storesOk ?_ rfl rfl rfl rfl rfl
    | fail_if_no_progress dsimp only | split

theorem slackRead_storesOk' {s : State} {d addr lo hi now : Nat} {silent : Bool} {y0 : Bool} {y1 : Nat} {t0 : State}
    (he : slackRead s d addr lo hi now silent = (y0, y1, t0)) (hok : s.storesOk = true) : t0.storesOk = true := by
  have := slackRead_storesOk (s := s) (d := d) (addr := addr) (lo := lo) (hi := hi) (now := now) (silent := silent) hok
  rwa [he] at this

theorem slackReadsEnd_storesOk {s : State} (hok : s.storesOk = true) :
    (slackReadsEnd s).storesOk = true := by
  unfold slackReadsEnd
  try dsimp only
  repeat' first
    | with_reducible first
      | assumption | apply ite_storesOk | fail_if_no_progress refine mk_storesOk ?_ rfl rfl rfl rfl rfl
    | fail_if_no_progress dsimp only | split

theorem logInsert_storesOk {s : State} {n : Nat} {it : LogItem} (hok : s.storesOk = true) :
    (logInsert s n it).storesOk = true := by
  unfold logInsert
  try dsimp only
  repeat' first
    | with_reducible first
      | assumption | apply ite_storesOk | apply logDrop_storesOk
      | fail_if_no_progress refine mk_storesOk ?_ rfl rfl rfl rfl rfl
    | fail_if_no_progress dsimp only | split

end Sys2Proof.Machine
end

