-- ==== Sys2Proof/Laws/KeepUnits.lean ====
section
/-! SUPPORT. That the map, the X-port and reels, the sinks, the modes and the ports
keep the stores canonical: one lemma for each operation. -/

set_option linter.unusedTactic false
set_option linter.unreachableTactic false
set_option linter.unusedVariables false

namespace Sys2Proof.Machine

theorem eccFlag_storesOk {s : State} {r : RamId} (hok : s.storesOk = true) : (eccFlag s r).storesOk = true := by
  unfold eccFlag
  try dsimp only
  repeat' first
    | with_reducible first
      | assumption | apply ite_storesOk | apply setB_storesOk
    | fail_if_no_progress dsimp only | split

theorem eccCount_storesOk {s : State} {r : RamId} {a : Nat} (h : s.storesOk = true) : (eccCount s r a).storesOk = true :=
  setB_storesOk (countUp_storesOk (mem_storesOk h (fun hm => hm) rfl rfl rfl rfl))

theorem eccRead_storesOk {s : State} {r : RamId} {a : Nat} (hok : s.storesOk = true) :
    (eccRead s r a).2.storesOk = true := by
  unfold eccRead
  try dsimp only
  repeat' first
    | with_reducible first
      | assumption | apply ite_storesOk | apply eccFlag_storesOk | apply eccCount_storesOk
      | fail_if_no_progress refine mk_storesOk ?_ rfl rfl rfl rfl rfl
    | fail_if_no_progress dsimp only | split

theorem eccRead_storesOk' {s : State} {r : RamId} {a : Nat} {t0 : State}
    {y0 : Bool} (he : eccRead s r a = (y0, t0)) (hok : s.storesOk = true) :
    t0.storesOk = true := by
  have := eccRead_storesOk (s := s) (r := r) (a := a) hok
  rwa [he] at this

theorem chargeWalk_storesOk {s : State} {c : Nat} (hok : s.storesOk = true) :
    (chargeWalk s c).storesOk = true := by
  unfold chargeWalk
  try dsimp only
  repeat' first
    | with_reducible first
      | assumption | apply ite_storesOk | fail_if_no_progress refine mk_storesOk ?_ rfl rfl rfl rfl rfl
    | fail_if_no_progress dsimp only | split

theorem stallFor_keeps {lay : Bool} {c : Nat} : Keeps (stallFor lay c) := by
  unfold stallFor
  try dsimp only
  repeat' first
    | with_reducible first
      | assumption | apply ite_storesOk | refine keeps_pure ?_ | apply keeps_throw | apply keeps_stopWith
      | apply keeps_ite | refine keeps_readSt (fun s hs => ?_) | refine keeps_get (fun w hw => ?_)
      | refine keeps_modifySt (fun s hs => ?_) | refine keeps_modify (fun w hw => ?_) | refine keeps_set ?_
      | apply chargeWalk_storesOk | fail_if_no_progress refine mk_storesOk ?_ rfl rfl rfl rfl rfl
      | refine keepsEffect_intro (fun s hok => ?_) | refine keeps_bind ?_ (fun _ => ?_)
    | fail_if_no_progress dsimp only | trivial | split

theorem strandEcc_storesOk {s : State} {a : Nat} (hok : s.storesOk = true) :
    (strandEcc s a).2.storesOk = true := by
  unfold strandEcc
  try dsimp only
  repeat' first
    | with_reducible first
      | assumption | apply ite_storesOk | apply eccRead_storesOk | refine eccRead_storesOk' (by assumption) ?_
    | fail_if_no_progress dsimp only | split

theorem strandEcc_storesOk' {s : State} {a : Nat} {y0 : Bool} {t0 : State}
    (he : strandEcc s a = (y0, t0)) (hok : s.storesOk = true) : t0.storesOk = true := by
  have := strandEcc_storesOk (s := s) (a := a) hok
  rwa [he] at this

theorem layExtRead_keeps {d lo hi : Nat} : Keeps (layExtRead d lo hi) := by
  unfold layExtRead
  try dsimp only
  repeat' first
    | with_reducible first
      | assumption | apply ite_storesOk | refine keeps_pure ?_ | apply keeps_throw | apply keeps_stopWith
      | apply keeps_ite | refine keeps_readSt (fun s hs => ?_) | refine keeps_get (fun w hw => ?_)
      | refine keeps_modifySt (fun s hs => ?_) | refine keeps_modify (fun w hw => ?_) | refine keeps_set ?_
      | apply stallFor_keeps | apply readOwn_storesOk | refine readOwn_storesOk' (by assumption) ?_
      | apply layLate_storesOk | refine layLate_storesOk' (by assumption) ?_
      | fail_if_no_progress refine mk_storesOk ?_ rfl rfl rfl rfl rfl | refine keepsEffect_intro (fun s hok => ?_)
      | refine keeps_bind ?_ (fun _ => ?_)
    | fail_if_no_progress dsimp only | trivial | split

theorem slackExtRead_keeps {d addr lo hi : Nat} : Keeps (slackExtRead d addr lo hi) := by
  unfold slackExtRead
  try dsimp only
  repeat' first
    | with_reducible first
      | assumption | apply ite_storesOk | refine keeps_pure ?_ | apply keeps_throw | apply keeps_stopWith
      | apply keeps_ite | refine keeps_readSt (fun s hs => ?_) | refine keeps_get (fun w hw => ?_)
      | refine keeps_modifySt (fun s hs => ?_) | refine keeps_modify (fun w hw => ?_) | refine keeps_set ?_
      | apply slackRead_storesOk | refine slackRead_storesOk' (by assumption) ?_ | apply stallFor_keeps
      | apply setB_storesOk | fail_if_no_progress refine mk_storesOk ?_ rfl rfl rfl rfl rfl
      | refine keepsEffect_intro (fun s hok => ?_) | refine keeps_bind ?_ (fun _ => ?_)
    | fail_if_no_progress dsimp only | trivial | split

theorem extRead_keeps {lay : Bool} {d addr lo hi va : Nat} : Keeps (extRead lay d addr lo hi va) := by
  unfold extRead
  try dsimp only
  repeat' first
    | with_reducible first
      | assumption | apply ite_storesOk | refine keeps_pure ?_ | apply keeps_throw | apply keeps_stopWith
      | apply keeps_ite | refine keeps_readSt (fun s hs => ?_) | refine keeps_get (fun w hw => ?_)
      | refine keeps_modifySt (fun s hs => ?_) | refine keeps_modify (fun w hw => ?_) | refine keeps_set ?_
      | apply layExtRead_keeps | apply slackExtRead_keeps | refine keepsEffect_intro (fun s hok => ?_)
      | refine keeps_bind ?_ (fun _ => ?_)
    | fail_if_no_progress dsimp only | trivial | split

theorem readEntry_keeps {lay : Bool} {loc : TableLoc} {i : Nat} {level : Nat} {va : Nat} : Keeps (readEntry lay loc i level va) := by
  unfold readEntry
  try dsimp only
  repeat' first
    | with_reducible first
      | assumption | apply ite_storesOk | refine keeps_pure ?_ | apply keeps_throw | apply keeps_stopWith
      | apply keeps_ite | refine keeps_readSt (fun s hs => ?_) | refine keeps_get (fun w hw => ?_)
      | refine keeps_modifySt (fun s hs => ?_) | refine keeps_modify (fun w hw => ?_) | refine keeps_set ?_
      | apply stallFor_keeps | apply strandEcc_storesOk | refine strandEcc_storesOk' (by assumption) ?_
      | apply extRead_keeps | fail_if_no_progress refine mk_storesOk ?_ rfl rfl rfl rfl rfl
      | refine keepsEffect_intro (fun s hok => ?_) | refine keeps_bind ?_ (fun _ => ?_)
    | fail_if_no_progress dsimp only | trivial | split

theorem walkPage_keeps {lay : Bool} {va : Nat} : Keeps (walkPage lay va) := by
  unfold walkPage
  try dsimp only
  repeat' first
    | with_reducible first
      | assumption | apply ite_storesOk | refine keeps_pure ?_ | apply keeps_throw | apply keeps_stopWith
      | apply keeps_ite | refine keeps_readSt (fun s hs => ?_) | refine keeps_get (fun w hw => ?_)
      | refine keeps_modifySt (fun s hs => ?_) | refine keeps_modify (fun w hw => ?_) | refine keeps_set ?_
      | apply readEntry_keeps | fail_if_no_progress refine mk_storesOk ?_ rfl rfl rfl rfl rfl
      | refine keepsEffect_intro (fun s hok => ?_) | refine keeps_bind ?_ (fun _ => ?_)
    | fail_if_no_progress dsimp only | trivial | split

theorem translate_keeps {lay : Bool} {va : Nat} : Keeps (translate lay va) := by
  unfold translate
  try dsimp only
  repeat' first
    | with_reducible first
      | assumption | apply ite_storesOk | refine keeps_pure ?_ | apply keeps_throw | apply keeps_stopWith
      | apply keeps_ite | refine keeps_readSt (fun s hs => ?_) | refine keeps_get (fun w hw => ?_)
      | refine keeps_modifySt (fun s hs => ?_) | refine keeps_modify (fun w hw => ?_) | refine keeps_set ?_
      | apply walkPage_keeps | fail_if_no_progress refine mk_storesOk ?_ rfl rfl rfl rfl rfl
      | refine keepsEffect_intro (fun s hok => ?_) | refine keeps_bind ?_ (fun _ => ?_)
    | fail_if_no_progress dsimp only | trivial | split

theorem pinFail_storesOk {s : State} (hok : s.storesOk = true) : (pinFail s).storesOk = true := by
  unfold pinFail
  try dsimp only
  repeat' first
    | with_reducible first
      | assumption | apply ite_storesOk | apply setB_storesOk | apply setF_storesOk
      | fail_if_no_progress refine mk_storesOk ?_ rfl rfl rfl rfl rfl
    | fail_if_no_progress dsimp only | split

theorem noteMapFault_storesOk {s : State} {lay : Bool} {code : FaultCode} {va : Nat} (hok : s.storesOk = true) :
    (noteMapFault s lay code va).storesOk = true := by
  unfold noteMapFault
  try dsimp only
  repeat' first
    | with_reducible first
      | assumption | apply ite_storesOk | apply setReg_storesOk
      | fail_if_no_progress refine mk_storesOk ?_ rfl rfl rfl rfl rfl
    | fail_if_no_progress dsimp only | split

theorem pinReads_storesOk {s t : State} (hok : s.storesOk = true) (hok1 : t.storesOk = true) :
    (pinReads s t).storesOk = true := by
  unfold pinReads
  try dsimp only
  repeat' first
    | with_reducible first
      | assumption | apply ite_storesOk | fail_if_no_progress refine mk_storesOk ?_ rfl rfl rfl rfl rfl
    | fail_if_no_progress dsimp only | split

theorem pinRun_storesOk {s : State} {vpn : Nat} (h : s.storesOk = true) : (pinRun s vpn).storesOk = true := by
  have hk := walkPage_keeps (lay := false) (va := vpn * 4096) { st := s, stall := 0 } h
  unfold pinRun
  dsimp only
  refine ite_storesOk (pinFail_storesOk h) ?_
  split
  · split
    · exact ite_storesOk (pinFail_storesOk h) (mk_storesOk h rfl rfl rfl rfl rfl)
    · exact h
  · refine ite_storesOk (pinFail_storesOk h) ?_
    split <;> rename_i e <;> rw [e] at hk
    · exact mk_storesOk (passSlots_storesOk (pinReads_storesOk h hk.1)) rfl rfl rfl rfl rfl
    · exact pinFail_storesOk (logHw_storesOk (passSlots_storesOk (pinReads_storesOk h hk.1)))
    · exact passSlots_storesOk (pinReads_storesOk h hk.1)

theorem pinTry_storesOk {s : State} (hok : s.storesOk = true) : (pinTry s).storesOk = true := by
  unfold pinTry
  try dsimp only
  repeat' first
    | with_reducible first
      | assumption | apply ite_storesOk | apply pinRun_storesOk
      | fail_if_no_progress refine mk_storesOk ?_ rfl rfl rfl rfl rfl
    | fail_if_no_progress dsimp only | split

theorem pinStart_storesOk {s : State} {vpn : Nat} (hok : s.storesOk = true) : (pinStart s vpn).storesOk = true := by
  unfold pinStart
  try dsimp only
  repeat' first
    | with_reducible first
      | assumption | apply ite_storesOk | apply pinTry_storesOk
      | fail_if_no_progress refine mk_storesOk ?_ rfl rfl rfl rfl rfl
    | fail_if_no_progress dsimp only | split

theorem checkEcc_keeps {r : RamId} {a : Nat} : Keeps (checkEcc r a) := by
  unfold checkEcc
  try dsimp only
  repeat' first
    | with_reducible first
      | assumption | apply ite_storesOk | refine keeps_pure ?_ | apply keeps_throw | apply keeps_stopWith
      | apply keeps_ite | refine keeps_readSt (fun s hs => ?_) | refine keeps_get (fun w hw => ?_)
      | refine keeps_modifySt (fun s hs => ?_) | refine keeps_modify (fun w hw => ?_) | refine keeps_set ?_
      | apply eccRead_storesOk | refine eccRead_storesOk' (by assumption) ?_
      | fail_if_no_progress refine mk_storesOk ?_ rfl rfl rfl rfl rfl | refine keepsEffect_intro (fun s hok => ?_)
      | refine keeps_bind ?_ (fun _ => ?_)
    | fail_if_no_progress dsimp only | trivial | split

theorem chEnd_storesOk {s : State} {ch : Nat} {st : ChState} {err : Nat} (hok : s.storesOk = true) :
    (chEnd s ch st err).storesOk = true := by
  unfold chEnd
  try dsimp only
  repeat' first
    | with_reducible first
      | assumption | apply ite_storesOk | apply setChan_storesOk | apply sysEvent_storesOk
      | apply postEvent_storesOk | fail_if_no_progress refine mk_storesOk ?_ rfl rfl rfl rfl rfl
    | fail_if_no_progress dsimp only | split

theorem leaseTake_storesOk {s : State} {h : Nat} (hok : s.storesOk = true) : (leaseTake s h).storesOk = true := by
  unfold leaseTake
  try dsimp only
  repeat' first
    | with_reducible first
      | assumption | apply ite_storesOk | fail_if_no_progress refine mk_storesOk ?_ rfl rfl rfl rfl rfl
    | fail_if_no_progress dsimp only | split

theorem leaseDrop_storesOk {s : State} (hok : s.storesOk = true) : (leaseDrop s).storesOk = true := by
  unfold leaseDrop
  try dsimp only
  repeat' first
    | with_reducible first
      | assumption | apply ite_storesOk | fail_if_no_progress refine mk_storesOk ?_ rfl rfl rfl rfl rfl
    | fail_if_no_progress dsimp only | split

theorem lineFold_wf {f : Nat → Cell} {g : Nat → Nat} {n : Nat} {ws : List Nat} {m : Mem} (h : m.wf = true) :
    (ws.foldl (fun m w => eccClear { m with line := sput zero m.line (g w) (f w), eccLogged := m.eccLogged.filter (· != n) }
      .line (g w)) m).wf = true := by
  induction ws generalizing m with
  | nil => exact h
  | cons w ws ih =>
    refine ih ?_
    rw [memWf_iff] at h; rw [eccClear_wf, memWf_iff]; simp_all [swf_sput]

theorem loadUnit_storesOk {s : State} {ch i : Nat} (h : s.storesOk = true) : (loadUnit s ch i).2.storesOk = true := by
  unfold loadUnit
  dsimp only
  split <;> split
  · exact h
  · refine mem_storesOk h (fun hm => ?_) rfl rfl rfl rfl
    rw [memWf_iff] at hm
    simp only [List.foldl_cons, List.foldl_nil, eccClear_wf, memWf_iff]
    exact ⟨swf_sput hm.1, swf_sput hm.2.1, hm.2.2⟩
  · exact h
  · refine mem_storesOk h (fun hm => ?_) rfl rfl rfl rfl
    rw [memWf_iff] at hm
    simp only [List.foldl_cons, List.foldl_nil, eccClear_wf, memWf_iff]
    exact ⟨hm.1, hm.2.1, swf_sput hm.2.2.1, swf_sput hm.2.2.2.1, hm.2.2.2.2⟩
  · exact h
  · exact mem_storesOk h (fun hm => lineFold_wf hm) rfl rfl rfl rfl

theorem loadUnit_storesOk' {s t : State} {ch i : Nat} {y : Except Nat Cell} (he : loadUnit s ch i = (y, t))
    (h : s.storesOk = true) : t.storesOk = true := by
  have := loadUnit_storesOk (ch := ch) (i := i) h
  rwa [he] at this

theorem copyRead_storesOk {s : State} {ch : Nat} {i : Nat} (hok : s.storesOk = true) :
    (copyRead s ch i).2.storesOk = true := by
  unfold copyRead
  try dsimp only
  repeat' first
    | with_reducible first
      | assumption | apply ite_storesOk | apply eccRead_storesOk | refine eccRead_storesOk' (by assumption) ?_
      | apply logHw_storesOk | fail_if_no_progress refine mk_storesOk ?_ rfl rfl rfl rfl rfl
    | fail_if_no_progress dsimp only | split

theorem copyRead_storesOk' {s : State} {ch : Nat} {i : Nat} {t0 : State}
    {y0 : Except Nat Cell} (he : copyRead s ch i = (y0, t0)) (hok : s.storesOk = true) :
    t0.storesOk = true := by
  have := copyRead_storesOk (s := s) (ch := ch) (i := i) hok
  rwa [he] at this

theorem copyWrite_storesOk {s t : State} {ch i : Nat} {v : Cell} (he : copyWrite s ch i v = .ok t) (h : s.storesOk = true) :
    t.storesOk = true := by
  unfold copyWrite at he
  dsimp only at he
  split at he <;> split at he <;> try cases he
  · refine mem_storesOk h (fun hm => ?_) rfl rfl rfl rfl
    rw [memWf_iff] at hm; rw [eccClear_wf, memWf_iff]; simp_all [swf_sput]
  · refine mem_storesOk h (fun hm => ?_) rfl rfl rfl rfl
    rw [memWf_iff] at hm; rw [eccClear_wf, memWf_iff]; simp_all [swf_sput]
  · exact extStore_storesOk h

theorem moveUnit_storesOk {s : State} {ch : Nat} (h : s.storesOk = true) : (moveUnit s ch).storesOk = true := by
  unfold moveUnit
  dsimp only
  split
  · split <;> rename_i e
    · exact setChan_storesOk (loadUnit_storesOk' e h)
    · exact chEnd_storesOk (loadUnit_storesOk' e h)
  · split <;> rename_i e
    · exact chEnd_storesOk (copyRead_storesOk' e h)
    · split <;> rename_i e2
      · exact chEnd_storesOk (copyRead_storesOk' e h)
      · exact setChan_storesOk (copyWrite_storesOk e2 (copyRead_storesOk' e h))

theorem moveUnits_storesOk {ch n : Nat} {s : State} (h : s.storesOk = true) : (moveUnits s ch n).storesOk = true := by
  induction n generalizing s with
  | zero => exact h
  | succ n ih =>
    unfold moveUnits
    split
    · exact ih (moveUnit_storesOk h)
    · exact h

theorem leaseChan_storesOk {s : State} {ch : Nat} (hok : s.storesOk = true) : (leaseChan s ch).storesOk = true := by
  unfold leaseChan
  try dsimp only
  repeat' first
    | with_reducible first
      | assumption | apply ite_storesOk | apply chEnd_storesOk | apply leaseTake_storesOk | apply setChan_storesOk
      | fail_if_no_progress refine mk_storesOk ?_ rfl rfl rfl rfl rfl
    | fail_if_no_progress dsimp only | split

theorem xpApply_storesOk {s : State} (hok : s.storesOk = true) :
    (xpApply s).storesOk = true := by
  unfold xpApply
  try dsimp only
  repeat' first
    | with_reducible first
      | assumption | apply ite_storesOk | apply setReg_storesOk | refine foldl_storesOk ?_ (fun s x h => ?_)
      | fail_if_no_progress refine mk_storesOk ?_ rfl rfl rfl rfl rfl
    | fail_if_no_progress dsimp only | split

theorem execXpCfgApply_nextOk {s : State} (hok : s.storesOk = true) : NextOk (execXpCfgApply s) := by
  unfold execXpCfgApply
  try dsimp only
  repeat' first
    | with_reducible first
      | assumption | apply ite_storesOk | refine nextOk_next ?_ | apply nextOk_ite | apply xpApply_storesOk
    | fail_if_no_progress dsimp only | split

theorem directEnd_storesOk {s : State} {err : Bool} (hok : s.storesOk = true) : (directEnd s err).storesOk = true := by
  unfold directEnd
  try dsimp only
  repeat' first
    | with_reducible first
      | assumption | apply ite_storesOk | apply setB_storesOk
      | fail_if_no_progress refine mk_storesOk ?_ rfl rfl rfl rfl rfl
    | fail_if_no_progress dsimp only | split

theorem execXpTimeout_nextOk {s : State} (hok : s.storesOk = true) : NextOk (execXpTimeout s) := by
  unfold execXpTimeout
  try dsimp only
  repeat' first
    | with_reducible first
      | assumption | apply ite_storesOk | refine nextOk_next ?_ | apply nextOk_ite | apply extForget_storesOk
      | apply logHw_storesOk | apply setB_storesOk | apply directEnd_storesOk
    | fail_if_no_progress dsimp only | split

theorem chStart_storesOk {s : State} {ch : Nat} (hok : s.storesOk = true) : (chStart s ch).storesOk = true := by
  unfold chStart
  try dsimp only
  repeat' first
    | with_reducible first
      | assumption | apply ite_storesOk | apply setChan_storesOk | apply reelPrune_storesOk | apply chEnd_storesOk
      | fail_if_no_progress refine mk_storesOk ?_ rfl rfl rfl rfl rfl
    | fail_if_no_progress dsimp only | split

theorem putDbuf_storesOk {s : State} {i : Nat} {b : Byte} (hok : s.storesOk = true) :
    (putDbuf s i b).storesOk = true := by
  unfold putDbuf
  try dsimp only
  repeat' first
    | with_reducible first
      | assumption | apply ite_storesOk | apply setF_storesOk
    | fail_if_no_progress dsimp only | split

theorem execDirectTransactionEnd_nextOk {data : Vector Byte 32} {s : State} (hok : s.storesOk = true) :
    NextOk (execDirectTransactionEnd data s) := by
  unfold execDirectTransactionEnd
  try dsimp only
  repeat' first
    | with_reducible first
      | assumption | apply ite_storesOk | refine nextOk_next ?_ | apply nextOk_ite | apply extForget_storesOk
      | apply putDbuf_storesOk | apply setB_storesOk | apply directEnd_storesOk
      | refine foldl_storesOk ?_ (fun s x h => ?_)
    | fail_if_no_progress dsimp only | split

theorem xpConfigWrite_storesOk {s : State} {r : Nat} {w : Word} (hok : s.storesOk = true) :
    (xpConfigWrite s r w).storesOk = true := by
  unfold xpConfigWrite
  try dsimp only
  repeat' first
    | with_reducible first
      | assumption | apply ite_storesOk | apply setReg_storesOk | apply xpApply_storesOk
      | fail_if_no_progress refine mk_storesOk ?_ rfl rfl rfl rfl rfl
    | fail_if_no_progress dsimp only | split

theorem directGo_storesOk {s : State} (hok : s.storesOk = true) : (directGo s).storesOk = true := by
  unfold directGo
  try dsimp only
  repeat' first
    | with_reducible first
      | assumption | apply ite_storesOk | fail_if_no_progress refine mk_storesOk ?_ rfl rfl rfl rfl rfl
    | fail_if_no_progress dsimp only | split

theorem strandFold_wf {f : Nat → Cell} {g : Nat → Nat} {ks : List Nat} {m : Mem} (h : m.wf = true) :
    (ks.foldl (fun m k => eccClear { m with strand := sput zero m.strand (g k) (f k) } .strand (g k)) m).wf = true := by
  induction ks generalizing m with
  | nil => exact h
  | cons k ks ih =>
    refine ih ?_
    rw [memWf_iff] at h; rw [eccClear_wf, memWf_iff]; simp_all [swf_sput]

theorem fillCells_storesOk {s : State} {ch p n : Nat} (h : s.storesOk = true) : (fillCells s ch p n).storesOk = true :=
  mem_storesOk h (fun hm => strandFold_wf hm) rfl rfl rfl rfl

theorem burstMove_storesOk {s : State} {ch : Nat} (hok : s.storesOk = true) :
    (burstMove s ch).storesOk = true := by
  unfold burstMove
  try dsimp only
  repeat' first
    | with_reducible first
      | assumption | apply ite_storesOk | apply takeFree_storesOk | refine takeFree_storesOk' (by assumption) ?_
      | apply fillCells_storesOk | apply moveUnits_storesOk
      | fail_if_no_progress refine mk_storesOk ?_ rfl rfl rfl rfl rfl
    | fail_if_no_progress dsimp only | split

theorem burstEnd_storesOk {s : State} {ch : Nat} (hok : s.storesOk = true) :
    (burstEnd s ch).storesOk = true := by
  unfold burstEnd
  try dsimp only
  repeat' first
    | with_reducible first
      | assumption | apply ite_storesOk | apply burstMove_storesOk | apply leaseDrop_storesOk
      | apply setChan_storesOk | apply chEnd_storesOk
      | fail_if_no_progress refine mk_storesOk ?_ rfl rfl rfl rfl rfl
    | fail_if_no_progress dsimp only | split

theorem leaseSettle_storesOk {s : State} (hok : s.storesOk = true) :
    (leaseSettle s).storesOk = true := by
  unfold leaseSettle
  try dsimp only
  repeat' first
    | with_reducible first
      | assumption | apply ite_storesOk | apply burstEnd_storesOk | apply leaseDrop_storesOk
      | apply moveUnits_storesOk | fail_if_no_progress refine mk_storesOk ?_ rfl rfl rfl rfl rfl
    | fail_if_no_progress dsimp only | split

theorem leaseGive_storesOk {s : State} (hok : s.storesOk = true) :
    (leaseGive s).storesOk = true := by
  unfold leaseGive
  try dsimp only
  repeat' first
    | with_reducible first
      | assumption | apply ite_storesOk | apply leaseChan_storesOk | apply leaseTake_storesOk
      | fail_if_no_progress refine mk_storesOk ?_ rfl rfl rfl rfl rfl
    | fail_if_no_progress dsimp only | split

theorem leaseGrant_storesOk {s0 : State} (hok : s0.storesOk = true) :
    (leaseGrant s0).storesOk = true := by
  unfold leaseGrant
  try dsimp only
  repeat' first
    | with_reducible first
      | assumption | apply ite_storesOk | apply leaseSettle_storesOk | apply leaseGive_storesOk
    | fail_if_no_progress dsimp only | split

theorem chStop_storesOk {s : State} {ch : Nat} (hok : s.storesOk = true) : (chStop s ch).storesOk = true := by
  unfold chStop
  try dsimp only
  repeat' first
    | with_reducible first
      | assumption | apply ite_storesOk | apply setChan_storesOk | apply chEnd_storesOk
      | fail_if_no_progress refine mk_storesOk ?_ rfl rfl rfl rfl rfl
    | fail_if_no_progress dsimp only | split

theorem execChannelDone_nextOk {ch : Fin 8} {s : State} (hok : s.storesOk = true) : NextOk (execChannelDone ch s) := by
  unfold execChannelDone
  try dsimp only
  repeat' first
    | with_reducible first
      | assumption | apply ite_storesOk | refine nextOk_next ?_ | apply nextOk_ite | apply burstEnd_storesOk
      | apply moveUnits_storesOk | apply chEnd_storesOk
    | fail_if_no_progress dsimp only | split

theorem feedSkip_storesOk {s : State} {ch : Nat} (hok : s.storesOk = true) : (feedSkip s ch).storesOk = true := by
  unfold feedSkip
  try dsimp only
  repeat' first
    | with_reducible first
      | assumption | apply ite_storesOk | apply setB_storesOk
    | fail_if_no_progress dsimp only | split

theorem engineReads_storesOk {s : State} {r : RamId} {as : List Nat} (h : s.storesOk = true) :
    (engineReads s r as).2.storesOk = true := by
  induction as generalizing s with
  | nil => exact h
  | cons a as ih =>
    unfold engineReads
    rcases he : eccRead s r a with ⟨bad, t⟩
    have h1 := eccRead_storesOk' he h
    dsimp only
    split
    · exact h1
    · exact ih h1

theorem engineReads_storesOk' {s : State} {r : RamId} {as : List Nat} {y : Option Nat} {t0 : State}
    (he : engineReads s r as = (y, t0)) (h : s.storesOk = true) : t0.storesOk = true := by
  have := engineReads_storesOk (s := s) (r := r) (as := as) h
  rwa [he] at this

theorem engineFault_storesOk {s : State} {a : Nat} (hok : s.storesOk = true) :
    (engineFault s a).storesOk = true := by
  unfold engineFault
  try dsimp only
  repeat' first
    | with_reducible first
      | assumption | apply ite_storesOk | apply logHw_storesOk
    | fail_if_no_progress dsimp only | split

theorem feedTick_storesOk {s : State} {ch : Nat} (hok : s.storesOk = true) : (feedTick s ch).storesOk = true := by
  unfold feedTick
  try dsimp only
  repeat' first
    | with_reducible first
      | assumption | apply ite_storesOk | apply feedSkip_storesOk | apply engineReads_storesOk
      | refine engineReads_storesOk' (by assumption) ?_ | apply engineFault_storesOk | apply setChan_storesOk
      | fail_if_no_progress refine mk_storesOk ?_ rfl rfl rfl rfl rfl
    | fail_if_no_progress dsimp only | split

theorem feedTicks_storesOk {s : State} (hok : s.storesOk = true) : (feedTicks s).storesOk = true := by
  unfold feedTicks
  try dsimp only
  repeat' first
    | with_reducible first
      | assumption | apply ite_storesOk | apply feedTick_storesOk | refine foldl_storesOk ?_ (fun s x h => ?_)
    | fail_if_no_progress dsimp only | split

theorem revokePartial_storesOk {s : State} {ch : Nat} (hok : s.storesOk = true) :
    (revokePartial s ch).storesOk = true := by
  unfold revokePartial
  try dsimp only
  repeat' first
    | with_reducible first
      | assumption | apply ite_storesOk | apply takeFree_storesOk | refine takeFree_storesOk' (by assumption) ?_
      | apply fillCells_storesOk | apply moveUnits_storesOk
      | fail_if_no_progress refine mk_storesOk ?_ rfl rfl rfl rfl rfl
    | fail_if_no_progress dsimp only | split

theorem resetStart_storesOk {s : State} {d : Nat} (hok : s.storesOk = true) :
    (resetStart s d).storesOk = true := by
  unfold resetStart
  try dsimp only
  repeat' first
    | with_reducible first
      | assumption | apply ite_storesOk | fail_if_no_progress refine mk_storesOk ?_ rfl rfl rfl rfl rfl
    | fail_if_no_progress dsimp only | split

theorem execXpLeaseRevoked_nextOk {addr : BitVec 24} {s : State} (hok : s.storesOk = true) :
    NextOk (execXpLeaseRevoked addr s) := by
  unfold execXpLeaseRevoked
  try dsimp only
  repeat' first
    | with_reducible first
      | assumption | apply ite_storesOk | refine nextOk_next ?_ | apply nextOk_ite | apply logHw_storesOk
      | apply setB_storesOk | apply countUp_storesOk | apply revokePartial_storesOk | apply chEnd_storesOk
      | apply directEnd_storesOk | apply extForget_storesOk | apply pinSettle_storesOk | apply resetStart_storesOk
      | fail_if_no_progress refine mk_storesOk ?_ rfl rfl rfl rfl rfl
    | fail_if_no_progress dsimp only | split

theorem reelFollow_storesOk {s0 : State} {ch line : Nat} (hok : s0.storesOk = true) :
    (reelFollow s0 ch line).storesOk = true := by
  unfold reelFollow
  try dsimp only
  repeat' first
    | with_reducible first
      | assumption | apply ite_storesOk | apply engineReads_storesOk
      | refine engineReads_storesOk' (by assumption) ?_ | apply engineFault_storesOk | apply setChan_storesOk
      | fail_if_no_progress refine mk_storesOk ?_ rfl rfl rfl rfl rfl
    | fail_if_no_progress dsimp only | split

theorem reelTickChan_storesOk {s : State} {ch : Nat} (hok : s.storesOk = true) :
    (reelTickChan s ch).storesOk = true := by
  unfold reelTickChan
  try dsimp only
  repeat' first
    | with_reducible first
      | assumption | apply ite_storesOk | apply reelFollow_storesOk | apply reelPrune_storesOk
      | apply setChan_storesOk | apply tallySample_storesOk
      | fail_if_no_progress refine mk_storesOk ?_ rfl rfl rfl rfl rfl
    | fail_if_no_progress dsimp only | split

theorem reelTick_storesOk {s : State} (hok : s.storesOk = true) : (reelTick s).storesOk = true := by
  unfold reelTick
  try dsimp only
  repeat' first
    | with_reducible first
      | assumption | apply ite_storesOk | apply reelTickChan_storesOk | refine foldl_storesOk ?_ (fun s x h => ?_)
    | fail_if_no_progress dsimp only | split

theorem execXpRecovery_nextOk {sfdp : Option Sfdp} {s : State} (hok : s.storesOk = true) : NextOk (execXpRecovery sfdp s) := by
  unfold execXpRecovery
  try dsimp only
  repeat' first
    | with_reducible first
      | assumption | apply ite_storesOk | refine nextOk_next ?_ | apply nextOk_ite | apply setB_storesOk
      | apply logHw_storesOk | fail_if_no_progress refine mk_storesOk ?_ rfl rfl rfl rfl rfl
    | fail_if_no_progress dsimp only | split

theorem reelQuiesce_storesOk {s : State} (hok : s.storesOk = true) : (reelQuiesce s).storesOk = true := by
  unfold reelQuiesce
  try dsimp only
  repeat' first
    | with_reducible first
      | assumption | apply ite_storesOk | apply setB_storesOk | apply setChan_storesOk
      | refine foldl_storesOk ?_ (fun s x h => ?_) | fail_if_no_progress refine mk_storesOk ?_ rfl rfl rfl rfl rfl
    | fail_if_no_progress dsimp only | split

theorem execLeaseGrant_nextOk {s : State} (hok : s.storesOk = true) : NextOk (execLeaseGrant s) := by
  unfold execLeaseGrant
  try dsimp only
  repeat' first
    | with_reducible first
      | assumption | apply ite_storesOk | refine nextOk_next ?_ | apply nextOk_ite | apply leaseGrant_storesOk
    | fail_if_no_progress dsimp only | split

theorem execPageReady_nextOk {ch : Fin 8} {s : State} (hok : s.storesOk = true) : NextOk (execPageReady ch s) := by
  unfold execPageReady
  try dsimp only
  repeat' first
    | with_reducible first
      | assumption | apply ite_storesOk | refine nextOk_next ?_ | apply nextOk_ite | apply burstEnd_storesOk
      | apply fillCells_storesOk | apply leaseDrop_storesOk | apply setChan_storesOk
      | fail_if_no_progress refine mk_storesOk ?_ rfl rfl rfl rfl rfl
    | fail_if_no_progress dsimp only | split

theorem diagEnd_storesOk {s : State} (hok : s.storesOk = true) : (diagEnd s).storesOk = true := by
  unfold diagEnd
  try dsimp only
  repeat' first
    | with_reducible first
      | assumption | apply ite_storesOk | apply setReg_storesOk | refine foldl_storesOk ?_ (fun s x h => ?_)
      | fail_if_no_progress refine mk_storesOk ?_ rfl rfl rfl rfl rfl
    | fail_if_no_progress dsimp only | split

theorem handoverBegin_storesOk {s : State} (hok : s.storesOk = true) : (handoverBegin s).storesOk = true := by
  unfold handoverBegin
  try dsimp only
  repeat' first
    | with_reducible first
      | assumption | apply ite_storesOk | refine foldl_storesOk ?_ (fun s x h => ?_)
      | fail_if_no_progress refine mk_storesOk ?_ rfl rfl rfl rfl rfl
    | fail_if_no_progress dsimp only | split

theorem latchSink_storesOk {s : State} {n : Nat} (hok : s.storesOk = true) : (latchSink s n).storesOk = true := by
  unfold latchSink
  try dsimp only
  repeat' first
    | with_reducible first
      | assumption | apply ite_storesOk | fail_if_no_progress refine mk_storesOk ?_ rfl rfl rfl rfl rfl
    | fail_if_no_progress dsimp only | split

theorem lightLatch_storesOk {s : State} (hok : s.storesOk = true) : (lightLatch s).storesOk = true := by
  unfold lightLatch
  try dsimp only
  repeat' first
    | with_reducible first
      | assumption | apply ite_storesOk | apply diagEnd_storesOk | apply latchSink_storesOk
      | refine foldl_storesOk ?_ (fun s x h => ?_) | fail_if_no_progress refine mk_storesOk ?_ rfl rfl rfl rfl rfl
    | fail_if_no_progress dsimp only | split

theorem handoverTick_storesOk {s : State} (hok : s.storesOk = true) : (handoverTick s).storesOk = true := by
  unfold handoverTick
  try dsimp only
  repeat' first
    | with_reducible first
      | assumption | apply ite_storesOk | fail_if_no_progress refine mk_storesOk ?_ rfl rfl rfl rfl rfl
    | fail_if_no_progress dsimp only | split

theorem execThermalMeasure_nextOk {m : Thermal} {s : State} (hok : s.storesOk = true) :
    NextOk (execThermalMeasure m s) := by
  unfold execThermalMeasure
  try dsimp only
  repeat' first
    | with_reducible first
      | assumption | apply ite_storesOk | refine nextOk_next ?_ | apply nextOk_ite | apply sysEvent_storesOk
      | apply logHw_storesOk | apply pinSettle_storesOk
      | fail_if_no_progress refine mk_storesOk ?_ rfl rfl rfl rfl rfl
    | fail_if_no_progress dsimp only | split

theorem fsReload_storesOk {s : State} (hok : s.storesOk = true) : (fsReload s).storesOk = true := by
  unfold fsReload
  try dsimp only
  repeat' first
    | with_reducible first
      | assumption | apply ite_storesOk | apply setReg_storesOk | refine foldl_storesOk ?_ (fun s x h => ?_)
      | fail_if_no_progress refine mk_storesOk ?_ rfl rfl rfl rfl rfl
    | fail_if_no_progress dsimp only | split

theorem sinkStraps_storesOk {s : State} (hok : s.storesOk = true) : (sinkStraps s).storesOk = true := by
  unfold sinkStraps
  try dsimp only
  repeat' first
    | with_reducible first
      | assumption | apply ite_storesOk | apply setF_storesOk | apply setReg_storesOk | apply fsReload_storesOk
      | refine foldl_storesOk ?_ (fun s x h => ?_) | fail_if_no_progress refine mk_storesOk ?_ rfl rfl rfl rfl rfl
    | fail_if_no_progress dsimp only | split

theorem execIrefCheck_nextOk {ohms : Option Nat} {s : State} (hok : s.storesOk = true) :
    NextOk (execIrefCheck ohms s) := by
  unfold execIrefCheck
  try dsimp only
  repeat' first
    | with_reducible first
      | assumption | apply ite_storesOk | refine nextOk_next ?_ | apply nextOk_ite | apply raiseFlag_storesOk
      | fail_if_no_progress refine mk_storesOk ?_ rfl rfl rfl rfl rfl
    | fail_if_no_progress dsimp only | split

theorem execFsInputChange_nextOk {levels : BitVec 3} {s : State} (hok : s.storesOk = true) :
    NextOk (execFsInputChange levels s) := by
  unfold execFsInputChange
  try dsimp only
  repeat' first
    | with_reducible first
      | assumption | apply ite_storesOk | refine nextOk_next ?_ | apply nextOk_ite
      | fail_if_no_progress refine mk_storesOk ?_ rfl rfl rfl rfl rfl
    | fail_if_no_progress dsimp only | split

theorem execDiagSample_nextOk {v : Option (BitVec 12)} {s : State} (hok : s.storesOk = true) :
    NextOk (execDiagSample v s) := by
  unfold execDiagSample
  try dsimp only
  repeat' first
    | with_reducible first
      | assumption | apply ite_storesOk | refine nextOk_next ?_ | apply nextOk_ite | apply tallySample_storesOk
      | apply pinSettle_storesOk | apply logHw_storesOk | apply raiseFlag_storesOk
      | fail_if_no_progress refine mk_storesOk ?_ rfl rfl rfl rfl rfl
    | fail_if_no_progress dsimp only | split

theorem execDiagStepBegin_nextOk {s : State} (hok : s.storesOk = true) : NextOk (execDiagStepBegin s) := by
  unfold execDiagStepBegin
  try dsimp only
  repeat' first
    | with_reducible first
      | assumption | apply ite_storesOk | refine nextOk_next ?_ | apply nextOk_ite | apply diagEnd_storesOk
      | fail_if_no_progress refine mk_storesOk ?_ rfl rfl rfl rfl rfl
    | fail_if_no_progress dsimp only | split

theorem setLastFail_storesOk {s : State} {r : Reason} (hok : s.storesOk = true) :
    (setLastFail s r).storesOk = true := by
  unfold setLastFail
  try dsimp only
  repeat' first
    | with_reducible first
      | assumption | apply ite_storesOk | apply setF_storesOk
    | fail_if_no_progress dsimp only | split

theorem dropOverride_storesOk {s : State} (hok : s.storesOk = true) : (dropOverride s).storesOk = true := by
  unfold dropOverride
  try dsimp only
  repeat' first
    | with_reducible first
      | assumption | apply ite_storesOk | apply setReg_storesOk
      | fail_if_no_progress refine mk_storesOk ?_ rfl rfl rfl rfl rfl
    | fail_if_no_progress dsimp only | split

theorem setResult_storesOk {s : State} {r : Nat} (hok : s.storesOk = true) : (setResult s r).storesOk = true := by
  unfold setResult
  try dsimp only
  repeat' first
    | with_reducible first
      | assumption | apply ite_storesOk | apply setF_storesOk
    | fail_if_no_progress dsimp only | split

theorem dropRequest_storesOk {s : State} (hok : s.storesOk = true) : (dropRequest s).storesOk = true := by
  unfold dropRequest
  try dsimp only
  repeat' first
    | with_reducible first
      | assumption | apply ite_storesOk | apply setResult_storesOk
      | fail_if_no_progress refine mk_storesOk ?_ rfl rfl rfl rfl rfl
    | fail_if_no_progress dsimp only | split

theorem romEnded_storesOk {s : State} (hok : s.storesOk = true) :
    (romEnded s).storesOk = true := by
  unfold romEnded
  try dsimp only
  repeat' first
    | with_reducible first
      | assumption | apply ite_storesOk | fail_if_no_progress refine mk_storesOk ?_ rfl rfl rfl rfl rfl
    | fail_if_no_progress dsimp only | split

theorem stopPrograms_storesOk {s0 : State} (hok : s0.storesOk = true) :
    (stopPrograms s0).storesOk = true := by
  unfold stopPrograms
  try dsimp only
  repeat' first
    | with_reducible first
      | assumption | apply ite_storesOk | apply romEnded_storesOk
      | fail_if_no_progress refine mk_storesOk ?_ rfl rfl rfl rfl rfl
    | fail_if_no_progress dsimp only | split

theorem clearDue_storesOk {s : State} (hok : s.storesOk = true) : (clearDue s).storesOk = true := by
  unfold clearDue
  try dsimp only
  repeat' first
    | with_reducible first
      | assumption | apply ite_storesOk | fail_if_no_progress refine mk_storesOk ?_ rfl rfl rfl rfl rfl
    | fail_if_no_progress dsimp only | split

theorem changeMode_storesOk {s : State} {m : Mode} (hok : s.storesOk = true) : (changeMode s m).storesOk = true := by
  unfold changeMode
  try dsimp only
  repeat' first
    | with_reducible first
      | assumption | apply ite_storesOk | apply diagEnd_storesOk | apply enterMode_storesOk | apply setF_storesOk
      | fail_if_no_progress refine mk_storesOk ?_ rfl rfl rfl rfl rfl
    | fail_if_no_progress dsimp only | split

theorem limpEnter_storesOk {s : State} {r : Reason} {immediate : Bool} (hok : s.storesOk = true) :
    (limpEnter s r immediate).storesOk = true := by
  unfold limpEnter
  try dsimp only
  repeat' first
    | with_reducible first
      | assumption | apply ite_storesOk | apply setLastFail_storesOk | apply setF_storesOk
      | apply fsReload_storesOk | apply dropOverride_storesOk | apply dropRequest_storesOk
      | apply stopPrograms_storesOk | apply clearDue_storesOk | apply changeMode_storesOk
      | fail_if_no_progress refine mk_storesOk ?_ rfl rfl rfl rfl rfl
    | fail_if_no_progress dsimp only | split

theorem execThermalShutdown_nextOk {s : State} (hok : s.storesOk = true) : NextOk (execThermalShutdown s) := by
  unfold execThermalShutdown
  try dsimp only
  repeat' first
    | with_reducible first
      | assumption | apply ite_storesOk | refine nextOk_next ?_ | apply nextOk_ite | apply limpEnter_storesOk
    | fail_if_no_progress dsimp only | split

theorem initMem_wf {m : Mem} (h : m.wf = true) : ({ Mem.init with ext := m.ext, epoch := m.epoch } : Mem).wf = true := by
  rw [memWf_iff] at h ⊢; exact ⟨rfl, rfl, rfl, rfl, rfl, rfl, rfl, rfl, h.2.2.2.2.2.2.2.2⟩

theorem resetUnits_storesOk {s : State} {keep : Nat → Bool} (h : s.storesOk = true) :
    (resetUnits s keep).storesOk = true := by
  simp only [State.storesOk, Bool.and_eq_true] at h ⊢
  exact ⟨⟨⟨⟨initMem_wf h.1.1.1.1, swf_filter h.1.1.1.2⟩, rfl⟩, rfl⟩, rfl⟩

theorem setCause_storesOk {s : State} {c : Nat} (hok : s.storesOk = true) : (setCause s c).storesOk = true := by
  unfold setCause
  try dsimp only
  repeat' first
    | with_reducible first
      | assumption | apply ite_storesOk | apply setF_storesOk
    | fail_if_no_progress dsimp only | split

theorem ropeStraps_storesOk {s : State} (hok : s.storesOk = true) : (ropeStraps s).storesOk = true := by
  unfold ropeStraps
  try dsimp only
  repeat' first
    | with_reducible first
      | assumption | apply ite_storesOk | apply setReg_storesOk
    | fail_if_no_progress dsimp only | split

theorem strapRegs_storesOk {s : State} (hok : s.storesOk = true) : (strapRegs s).storesOk = true := by
  unfold strapRegs
  try dsimp only
  repeat' first
    | with_reducible first
      | assumption | apply ite_storesOk | apply setReg_storesOk | apply sinkStraps_storesOk
      | apply ropeStraps_storesOk
    | fail_if_no_progress dsimp only | split

theorem raiseAt_storesOk {s : State} {st : RaiseStep} {workshop : Bool} (hok : s.storesOk = true) :
    (raiseAt s st workshop).storesOk = true := by
  unfold raiseAt
  try dsimp only
  repeat' first
    | with_reducible first
      | assumption | apply ite_storesOk | apply changeMode_storesOk | apply clearDue_storesOk
      | apply chooseReference_storesOk | fail_if_no_progress refine mk_storesOk ?_ rfl rfl rfl rfl rfl
    | fail_if_no_progress dsimp only | split

theorem warmRestart_storesOk {s : State} {cause : Nat} {workshop : Bool} (hok : s.storesOk = true) :
    (warmRestart s cause workshop).storesOk = true := by
  unfold warmRestart
  try dsimp only
  repeat' first
    | with_reducible first
      | assumption | apply ite_storesOk | apply resetUnits_storesOk | apply setCause_storesOk
      | apply strapRegs_storesOk | apply setResult_storesOk | apply raiseAt_storesOk | apply limpEnter_storesOk
      | fail_if_no_progress refine mk_storesOk ?_ rfl rfl rfl rfl rfl
    | fail_if_no_progress dsimp only | split

theorem failedStart_storesOk {s : State} {r : Reason} {cause : Nat} (hok : s.storesOk = true) :
    (failedStart s r cause).storesOk = true := by
  unfold failedStart
  try dsimp only
  repeat' first
    | with_reducible first
      | assumption | apply ite_storesOk | apply setLastFail_storesOk | apply setF_storesOk
      | apply limpEnter_storesOk | apply warmRestart_storesOk
      | fail_if_no_progress refine mk_storesOk ?_ rfl rfl rfl rfl rfl
    | fail_if_no_progress dsimp only | split

theorem execHoldoverTimeout_nextOk {s : State} (hok : s.storesOk = true) : NextOk (execHoldoverTimeout s) := by
  unfold execHoldoverTimeout
  try dsimp only
  repeat' first
    | with_reducible first
      | assumption | apply ite_storesOk | refine nextOk_next ?_ | apply nextOk_ite | apply failedStart_storesOk
    | fail_if_no_progress dsimp only | split

theorem pulseWrite_storesOk {s : State} (hok : s.storesOk = true) : (pulseWrite s).storesOk = true := by
  unfold pulseWrite
  try dsimp only
  repeat' first
    | with_reducible first
      | assumption | apply ite_storesOk | apply setB_storesOk
      | fail_if_no_progress refine mk_storesOk ?_ rfl rfl rfl rfl rfl
    | fail_if_no_progress dsimp only | split

theorem execWakePulseEnd_nextOk {s : State} (hok : s.storesOk = true) : NextOk (execWakePulseEnd s) := by
  unfold execWakePulseEnd
  try dsimp only
  repeat' first
    | with_reducible first
      | assumption | apply ite_storesOk | refine nextOk_next ?_ | apply nextOk_ite
      | fail_if_no_progress refine mk_storesOk ?_ rfl rfl rfl rfl rfl
    | fail_if_no_progress dsimp only | split

theorem bare_storesOk {s t : State} (h : s.storesOk = true)
    (hm : t.mem = { Mem.init with ext := s.mem.ext, epoch := s.mem.epoch }) (hr : t.regs = []) (hx : t.rope.tx = [])
    (hy : t.rope.rx = []) (hc : t.twb.cbuf = []) : t.storesOk = true := by
  simp only [State.storesOk, hm, hr, hx, hy, hc, Bool.and_eq_true] at h ⊢
  exact ⟨⟨⟨⟨initMem_wf h.1.1.1.1, rfl⟩, rfl⟩, rfl⟩, rfl⟩

theorem execPowerLoss_nextOk {s : State} (h : s.storesOk = true) : NextOk (execPowerLoss s) :=
  nextOk_next (extForget_storesOk (bare_storesOk h rfl rfl rfl rfl rfl))

theorem quiesceEnter_storesOk {s0 : State} {target : Mode} (hok : s0.storesOk = true) :
    (quiesceEnter s0 target).storesOk = true := by
  unfold quiesceEnter
  try dsimp only
  repeat' first
    | with_reducible first
      | assumption | apply ite_storesOk | apply setResult_storesOk | apply setB_storesOk
      | apply changeMode_storesOk | apply reelQuiesce_storesOk
      | fail_if_no_progress refine mk_storesOk ?_ rfl rfl rfl rfl rfl
    | fail_if_no_progress dsimp only | split

theorem pendRequest_storesOk {s : State} {m : Mode} (hok : s.storesOk = true) : (pendRequest s m).storesOk = true := by
  unfold pendRequest
  try dsimp only
  repeat' first
    | with_reducible first
      | assumption | apply ite_storesOk | apply setResult_storesOk
      | fail_if_no_progress refine mk_storesOk ?_ rfl rfl rfl rfl rfl
    | fail_if_no_progress dsimp only | split

theorem clearStarts_storesOk {s : State} (hok : s.storesOk = true) : (clearStarts s).storesOk = true := by
  unfold clearStarts
  try dsimp only
  repeat' first
    | with_reducible first
      | assumption | apply ite_storesOk | apply setReg_storesOk
      | fail_if_no_progress refine mk_storesOk ?_ rfl rfl rfl rfl rfl
    | fail_if_no_progress dsimp only | split

theorem wakeStart_storesOk {s : State} {mask : Nat} (hok : s.storesOk = true) : (wakeStart s mask).storesOk = true := by
  unfold wakeStart
  try dsimp only
  repeat' first
    | with_reducible first
      | assumption | apply ite_storesOk | apply resetUnits_storesOk | apply strapRegs_storesOk
      | apply setCause_storesOk | apply setF_storesOk | apply countUp_storesOk | apply raiseAt_storesOk
      | fail_if_no_progress refine mk_storesOk ?_ rfl rfl rfl rfl rfl
    | fail_if_no_progress dsimp only | split

theorem sleepEnter_storesOk {s : State} {m : Mode} (hok : s.storesOk = true) : (sleepEnter s m).storesOk = true := by
  unfold sleepEnter
  try dsimp only
  repeat' first
    | with_reducible first
      | assumption | apply ite_storesOk | apply stopPrograms_storesOk | apply clearDue_storesOk
      | apply fsReload_storesOk | apply dropOverride_storesOk | apply clearStarts_storesOk
      | apply changeMode_storesOk | apply wakeStart_storesOk
      | fail_if_no_progress refine mk_storesOk ?_ rfl rfl rfl rfl rfl
    | fail_if_no_progress dsimp only | split

theorem takeRequest_storesOk {s : State} {target : Nat} (hok : s.storesOk = true) :
    (takeRequest s target).storesOk = true := by
  unfold takeRequest
  try dsimp only
  repeat' first
    | with_reducible first
      | assumption | apply ite_storesOk | apply setResult_storesOk | apply quiesceEnter_storesOk
      | apply pendRequest_storesOk | apply warmRestart_storesOk | apply sleepEnter_storesOk
      | apply wakeStart_storesOk | apply clearStarts_storesOk
      | fail_if_no_progress refine mk_storesOk ?_ rfl rfl rfl rfl rfl
    | fail_if_no_progress dsimp only | split

theorem sysResetWrite_storesOk {s : State} (hok : s.storesOk = true) : (sysResetWrite s).storesOk = true := by
  unfold sysResetWrite
  try dsimp only
  repeat' first
    | with_reducible first
      | assumption | apply ite_storesOk | apply warmRestart_storesOk | apply setLastFail_storesOk
      | fail_if_no_progress refine mk_storesOk ?_ rfl rfl rfl rfl rfl
    | fail_if_no_progress dsimp only | split

theorem execPllNoLock_nextOk {s : State} (hok : s.storesOk = true) : NextOk (execPllNoLock s) := by
  unfold execPllNoLock
  try dsimp only
  repeat' first
    | with_reducible first
      | assumption | apply ite_storesOk | refine nextOk_next ?_ | apply nextOk_ite | apply limpEnter_storesOk
    | fail_if_no_progress dsimp only | split

theorem roleRegs_storesOk {s : State} (hok : s.storesOk = true) : (roleRegs s).storesOk = true := by
  unfold roleRegs
  try dsimp only
  repeat' first
    | with_reducible first
      | assumption | apply ite_storesOk | apply setReg_storesOk
    | fail_if_no_progress dsimp only | split

theorem coldStart_storesOk {s : State} {b : Boot} {cause : Nat} (h : s.storesOk = true) :
    (coldStart s b cause).storesOk = true := by
  have h1 : ∀ (t : State), t.mem = { Mem.init with ext := s.mem.ext, epoch := s.mem.epoch } → t.regs = [] →
      t.rope.tx = [] → t.rope.rx = [] → t.twb.cbuf = [] → t.storesOk = true :=
    fun t => bare_storesOk h
  unfold coldStart
  dsimp only
  split
  · refine limpEnter_storesOk (strapRegs_storesOk (roleRegs_storesOk ?_))
    refine mk_storesOk (s := setReg _ _ _) (setReg_storesOk ?_) rfl rfl rfl rfl rfl
    exact h1 _ rfl rfl rfl rfl rfl
  · refine strapRegs_storesOk (roleRegs_storesOk ?_)
    refine mk_storesOk (s := setReg _ _ _) (setReg_storesOk ?_) rfl rfl rfl rfl rfl
    exact h1 _ rfl rfl rfl rfl rfl

theorem execPllLock_nextOk {s : State} (hok : s.storesOk = true) : NextOk (execPllLock s) := by
  unfold execPllLock
  try dsimp only
  repeat' first
    | with_reducible first
      | assumption | apply ite_storesOk | refine nextOk_next ?_ | apply nextOk_ite | apply setReg_storesOk
      | fail_if_no_progress refine mk_storesOk ?_ rfl rfl rfl rfl rfl
    | fail_if_no_progress dsimp only | split

theorem holdEnter_storesOk {s : State} (hok : s.storesOk = true) : (holdEnter s).storesOk = true := by
  unfold holdEnter
  try dsimp only
  repeat' first
    | with_reducible first
      | assumption | apply ite_storesOk | apply changeMode_storesOk | apply setB_storesOk
      | fail_if_no_progress refine mk_storesOk ?_ rfl rfl rfl rfl rfl
    | fail_if_no_progress dsimp only | split

theorem holdCarry_storesOk {s : State} (hok : s.storesOk = true) : (holdCarry s).storesOk = true := by
  unfold holdCarry
  try dsimp only
  repeat' first
    | with_reducible first
      | assumption | apply ite_storesOk | apply holdEnter_storesOk
    | fail_if_no_progress dsimp only | split

theorem execPowerOnResetRelease_nextOk {b : Boot} {s : State} (h : s.storesOk = true) :
    NextOk (execPowerOnResetRelease b s) := by
  unfold execPowerOnResetRelease
  refine nextOk_ite (nextOk_next ?_) (nextOk_next (coldStart_storesOk h))
  exact bare_storesOk h rfl rfl rfl rfl rfl

theorem wakeSources_storesOk {s : State} {srcs : Nat} (hok : s.storesOk = true) :
    (wakeSources s srcs).storesOk = true := by
  unfold wakeSources
  try dsimp only
  repeat' first
    | with_reducible first
      | assumption | apply ite_storesOk | apply wakeStart_storesOk
      | fail_if_no_progress refine mk_storesOk ?_ rfl rfl rfl rfl rfl
    | fail_if_no_progress dsimp only | split

theorem quiesceLeave_storesOk {s : State} (hok : s.storesOk = true) : (quiesceLeave s).storesOk = true := by
  unfold quiesceLeave
  try dsimp only
  repeat' first
    | with_reducible first
      | assumption | apply ite_storesOk | apply setResult_storesOk | apply sleepEnter_storesOk
    | fail_if_no_progress dsimp only | split

theorem execResetPinPulse_nextOk {b : Boot} {s : State} (hok : s.storesOk = true) : NextOk (execResetPinPulse b s) := by
  unfold execResetPinPulse
  try dsimp only
  repeat' first
    | with_reducible first
      | assumption | apply ite_storesOk | refine nextOk_next ?_ | apply nextOk_ite | apply coldStart_storesOk
    | fail_if_no_progress dsimp only | split

theorem duePulse_storesOk {s : State} (hok : s.storesOk = true) : (duePulse s).storesOk = true := by
  unfold duePulse
  try dsimp only
  repeat' first
    | with_reducible first
      | assumption | apply ite_storesOk | apply setB_storesOk
      | fail_if_no_progress refine mk_storesOk ?_ rfl rfl rfl rfl rfl
    | fail_if_no_progress dsimp only | split

theorem execRopeNoImage_nextOk {s : State} (hok : s.storesOk = true) : NextOk (execRopeNoImage s) := by
  unfold execRopeNoImage
  try dsimp only
  repeat' first
    | with_reducible first
      | assumption | apply ite_storesOk | refine nextOk_next ?_ | apply nextOk_ite | apply failedStart_storesOk
    | fail_if_no_progress dsimp only | split

theorem modeRequest_storesOk {s0 : State} {target : Nat} (hok : s0.storesOk = true) :
    (modeRequest s0 target).storesOk = true := by
  unfold modeRequest
  try dsimp only
  repeat' first
    | with_reducible first
      | assumption | apply ite_storesOk | apply holdCarry_storesOk | apply setF_storesOk | apply setResult_storesOk
      | apply takeRequest_storesOk
    | fail_if_no_progress dsimp only | split

theorem execSlackWatchdog_nextOk {s : State} (hok : s.storesOk = true) : NextOk (execSlackWatchdog s) := by
  unfold execSlackWatchdog
  try dsimp only
  repeat' first
    | with_reducible first
      | assumption | apply ite_storesOk | refine nextOk_next ?_ | apply nextOk_ite | apply failedStart_storesOk
    | fail_if_no_progress dsimp only | split

theorem execNoReference_nextOk {s : State} (hok : s.storesOk = true) : NextOk (execNoReference s) := by
  unfold execNoReference
  try dsimp only
  repeat' first
    | with_reducible first
      | assumption | apply ite_storesOk | refine nextOk_next ?_ | apply nextOk_ite | apply limpEnter_storesOk
    | fail_if_no_progress dsimp only | split

theorem execStartWindowClose_nextOk {s : State} (hok : s.storesOk = true) : NextOk (execStartWindowClose s) := by
  unfold execStartWindowClose
  try dsimp only
  repeat' first
    | with_reducible first
      | assumption | apply ite_storesOk | refine nextOk_next ?_ | apply nextOk_ite | apply setF_storesOk
      | fail_if_no_progress refine mk_storesOk ?_ rfl rfl rfl rfl rfl
    | fail_if_no_progress dsimp only | split

theorem execWakeTimer_nextOk {s : State} (hok : s.storesOk = true) : NextOk (execWakeTimer s) := by
  unfold execWakeTimer
  try dsimp only
  repeat' first
    | with_reducible first
      | assumption | apply ite_storesOk | refine nextOk_next ?_ | apply nextOk_ite | apply wakeSources_storesOk
      | fail_if_no_progress refine mk_storesOk ?_ rfl rfl rfl rfl rfl
    | fail_if_no_progress dsimp only | split

theorem execQuiesceComplete_nextOk {s : State} (hok : s.storesOk = true) : NextOk (execQuiesceComplete s) := by
  unfold execQuiesceComplete
  try dsimp only
  repeat' first
    | with_reducible first
      | assumption | apply ite_storesOk | refine nextOk_next ?_ | apply nextOk_ite | apply quiesceLeave_storesOk
    | fail_if_no_progress dsimp only | split

theorem execWake_nextOk {srcs : BitVec 8} {s : State} (hok : s.storesOk = true) : NextOk (execWake srcs s) := by
  unfold execWake
  try dsimp only
  repeat' first
    | with_reducible first
      | assumption | apply ite_storesOk | refine nextOk_next ?_ | apply nextOk_ite | apply wakeSources_storesOk
    | fail_if_no_progress dsimp only | split

theorem execSupplyLow_nextOk {s : State} (hok : s.storesOk = true) : NextOk (execSupplyLow s) := by
  unfold execSupplyLow
  try dsimp only
  repeat' first
    | with_reducible first
      | assumption | apply ite_storesOk | refine nextOk_next ?_ | apply nextOk_ite | apply setB_storesOk
      | apply limpEnter_storesOk | fail_if_no_progress refine mk_storesOk ?_ rfl rfl rfl rfl rfl
    | fail_if_no_progress dsimp only | split

theorem ropStamp_storesOk {s : State} {frame : Nat} {slot : Nat} (hok : s.storesOk = true) :
    (ropStamp s frame slot).storesOk = true := by
  unfold ropStamp
  try dsimp only
  repeat' first
    | with_reducible first
      | assumption | apply ite_storesOk | apply setReg_storesOk
    | fail_if_no_progress dsimp only | split

theorem wireStart_storesOk {s : State} (hok : s.storesOk = true) : (wireStart s).storesOk = true := by
  unfold wireStart
  try dsimp only
  repeat' first
    | with_reducible first
      | assumption | apply ite_storesOk | apply ropStamp_storesOk
      | fail_if_no_progress refine mk_storesOk ?_ rfl rfl rfl rfl rfl
    | fail_if_no_progress dsimp only | split

theorem setRopWord_storesOk {s : State} {rx : Bool} {i : Nat} {w : Word} (h : s.storesOk = true) :
    (setRopWord s rx i w).storesOk = true := by
  unfold setRopWord
  simp only [State.storesOk, Bool.and_eq_true] at h ⊢
  cases rx
  · exact ⟨⟨⟨h.1.1.1, swf_sput h.1.1.2⟩, h.1.2⟩, h.2⟩
  · exact ⟨⟨h.1.1, swf_sput h.1.2⟩, h.2⟩

theorem storeRx_storesOk {s : State} {words : Nat} {width : Nat} {rx : List Word} (hok : s.storesOk = true) :
    (storeRx s words width rx).storesOk = true := by
  unfold storeRx
  try dsimp only
  repeat' first
    | with_reducible first
      | assumption | apply ite_storesOk | apply setRopWord_storesOk | refine foldl_storesOk ?_ (fun s x h => ?_)
    | fail_if_no_progress dsimp only | split

theorem replyLatency_storesOk {s : State} {code : Byte} {w : Word} {out : List Word} (hok : s.storesOk = true) :
    (replyLatency s code w out).storesOk = true := by
  unfold replyLatency
  try dsimp only
  repeat' first
    | with_reducible first
      | assumption | apply ite_storesOk | apply tallySample_storesOk
      | fail_if_no_progress refine mk_storesOk ?_ rfl rfl rfl rfl rfl
    | fail_if_no_progress dsimp only | split

theorem ropFlag_storesOk {s : State} {n : Nat} (hok : s.storesOk = true) : (ropFlag s n).storesOk = true := by
  unfold ropFlag
  try dsimp only
  repeat' first
    | with_reducible first
      | assumption | apply ite_storesOk | apply raiseFlag_storesOk
    | fail_if_no_progress dsimp only | split

theorem svcForget_storesOk {s : State} {c : Byte} (hok : s.storesOk = true) :
    (svcForget s c).storesOk = true := by
  unfold svcForget
  try dsimp only
  repeat' first
    | with_reducible first
      | assumption | apply ite_storesOk | fail_if_no_progress refine mk_storesOk ?_ rfl rfl rfl rfl rfl
    | fail_if_no_progress dsimp only | split

theorem svcTodo_storesOk {s : State} {c : Byte} {ts : List SvcTask} (hok : s.storesOk = true) :
    (svcTodo s c ts).storesOk = true := by
  unfold svcTodo
  try dsimp only
  repeat' first
    | with_reducible first
      | assumption | apply ite_storesOk | fail_if_no_progress refine mk_storesOk ?_ rfl rfl rfl rfl rfl
    | fail_if_no_progress dsimp only | split

theorem svcGood_storesOk {s : State} {p : SvcAsk} {rx : List Word} (hok : s.storesOk = true) :
    (svcGood s p rx).storesOk = true := by
  unfold svcGood
  try dsimp only
  repeat' first
    | with_reducible first
      | assumption | apply ite_storesOk | apply svcTodo_storesOk
      | fail_if_no_progress refine mk_storesOk ?_ rfl rfl rfl rfl rfl
    | fail_if_no_progress dsimp only | split

theorem svcReply_storesOk {s : State} {ask : SvcAsk} {words : Nat} {rx : List Word} (hok : s.storesOk = true) :
    (svcReply s ask words rx).storesOk = true := by
  unfold svcReply
  try dsimp only
  repeat' first
    | with_reducible first
      | assumption | apply ite_storesOk | apply ropFlag_storesOk | apply setB_storesOk | apply svcForget_storesOk
      | apply svcTodo_storesOk | apply svcGood_storesOk
      | fail_if_no_progress refine mk_storesOk ?_ rfl rfl rfl rfl rfl
    | fail_if_no_progress dsimp only | split

theorem execXferDone_nextOk {rx : List Word} {s : State} (hok : s.storesOk = true) : NextOk (execXferDone rx s) := by
  unfold execXferDone
  try dsimp only
  repeat' first
    | with_reducible first
      | assumption | apply ite_storesOk | refine nextOk_next ?_ | apply nextOk_ite | apply setChan_storesOk
      | apply wireStart_storesOk | apply replyLatency_storesOk | apply svcReply_storesOk | apply storeRx_storesOk
      | apply ropFlag_storesOk | apply postEvent_storesOk | apply setB_storesOk
      | fail_if_no_progress refine mk_storesOk ?_ rfl rfl rfl rfl rfl
    | fail_if_no_progress dsimp only | split

theorem dropFeeds_storesOk {s : State} {wire : List Job} (hok : s.storesOk = true) :
    (dropFeeds s wire).storesOk = true := by
  unfold dropFeeds
  try dsimp only
  repeat' first
    | with_reducible first
      | assumption | apply ite_storesOk | apply feedSkip_storesOk | apply setChan_storesOk
      | refine foldl_storesOk ?_ (fun s x h => ?_) | fail_if_no_progress refine mk_storesOk ?_ rfl rfl rfl rfl rfl
    | fail_if_no_progress dsimp only | split

theorem execRopeModeFault_nextOk {s : State} (h : s.storesOk = true) : NextOk (execRopeModeFault s) := by
  have hm : ∀ u : State, u.storesOk = true → ({ u with rope := { u.rope with wire := [] } } : State).storesOk = true :=
    fun u hu => mk_storesOk hu rfl rfl rfl rfl rfl
  unfold execRopeModeFault
  refine nextOk_ite ?_ (nextOk_next h)
  refine nextOk_next (dropFeeds_storesOk (hm _ (ropFlag_storesOk ?_)))
  exact setB_storesOk (setB_storesOk (setF_storesOk (logHw_storesOk h)))

theorem takeOver_storesOk {s : State} (hok : s.storesOk = true) : (takeOver s).storesOk = true := by
  unfold takeOver
  try dsimp only
  repeat' first
    | with_reducible first
      | assumption | apply ite_storesOk | apply ropFlag_storesOk | apply setB_storesOk
      | apply changePrimary_storesOk
    | fail_if_no_progress dsimp only | split

theorem foundFault_storesOk {s : State} {code : Byte} (hok : s.storesOk = true) :
    (foundFault s code).storesOk = true := by
  unfold foundFault
  try dsimp only
  repeat' first
    | with_reducible first
      | assumption | apply ite_storesOk | apply setF_storesOk
    | fail_if_no_progress dsimp only | split

theorem xferGo_storesOk {s : State} (hok : s.storesOk = true) : (xferGo s).storesOk = true := by
  unfold xferGo
  try dsimp only
  repeat' first
    | with_reducible first
      | assumption | apply ite_storesOk | apply ropFlag_storesOk | apply setF_storesOk | apply wireStart_storesOk
      | fail_if_no_progress refine mk_storesOk ?_ rfl rfl rfl rfl rfl
    | fail_if_no_progress dsimp only | split

theorem bufNext_storesOk {s : State} (hok : s.storesOk = true) : (bufNext s).storesOk = true := by
  unfold bufNext
  try dsimp only
  repeat' first
    | with_reducible first
      | assumption | apply ite_storesOk | apply setF_storesOk
    | fail_if_no_progress dsimp only | split

theorem enumOne_storesOk {s : State} {f : Found} (hok : s.storesOk = true) : (enumOne s f).storesOk = true := by
  unfold enumOne
  try dsimp only
  repeat' first
    | with_reducible first
      | assumption | apply ite_storesOk | apply svcForget_storesOk | apply setB_storesOk
      | apply foundFault_storesOk | apply ropFlag_storesOk
      | fail_if_no_progress refine mk_storesOk ?_ rfl rfl rfl rfl rfl
    | fail_if_no_progress dsimp only | split

theorem bufWrite_storesOk {s : State} {w : Word} (hok : s.storesOk = true) : (bufWrite s w).storesOk = true := by
  unfold bufWrite
  try dsimp only
  repeat' first
    | with_reducible first
      | assumption | apply ite_storesOk | apply bufNext_storesOk | apply setRopWord_storesOk
    | fail_if_no_progress dsimp only | split

theorem execEnumeration_nextOk {found : List Found} {s : State} (hok : s.storesOk = true) :
    NextOk (execEnumeration found s) := by
  unfold execEnumeration
  try dsimp only
  repeat' first
    | with_reducible first
      | assumption | apply ite_storesOk | refine nextOk_next ?_ | apply nextOk_ite | apply enumOne_storesOk
      | refine foldl_storesOk ?_ (fun s x h => ?_)
    | fail_if_no_progress dsimp only | split

theorem twbFlag_storesOk {s : State} {n : Nat} (hok : s.storesOk = true) : (twbFlag s n).storesOk = true := by
  unfold twbFlag
  try dsimp only
  repeat' first
    | with_reducible first
      | assumption | apply ite_storesOk | apply raiseFlag_storesOk
    | fail_if_no_progress dsimp only | split

theorem twbFinish_storesOk {s : State} {r : Nat} (hok : s.storesOk = true) : (twbFinish s r).storesOk = true := by
  unfold twbFinish
  try dsimp only
  repeat' first
    | with_reducible first
      | assumption | apply ite_storesOk | apply postEvent_storesOk | apply setB_storesOk | apply twbFlag_storesOk
      | fail_if_no_progress refine mk_storesOk ?_ rfl rfl rfl rfl rfl
    | fail_if_no_progress dsimp only | split

theorem twbRetry_storesOk {s : State} {j : TwbJob} {r : Nat} (hok : s.storesOk = true) :
    (twbRetry s j r).storesOk = true := by
  unfold twbRetry
  try dsimp only
  repeat' first
    | with_reducible first
      | assumption | apply ite_storesOk | apply twbFinish_storesOk
      | fail_if_no_progress refine mk_storesOk ?_ rfl rfl rfl rfl rfl
    | fail_if_no_progress dsimp only | split

theorem execTwbAddressRetry_nextOk {s : State} (hok : s.storesOk = true) : NextOk (execTwbAddressRetry s) := by
  unfold execTwbAddressRetry
  try dsimp only
  repeat' first
    | with_reducible first
      | assumption | apply ite_storesOk | refine nextOk_next ?_ | apply nextOk_ite | apply twbRetry_storesOk
      | fail_if_no_progress refine mk_storesOk ?_ rfl rfl rfl rfl rfl
    | fail_if_no_progress dsimp only | split

theorem twbGo_storesOk {s : State} (hok : s.storesOk = true) : (twbGo s).storesOk = true := by
  unfold twbGo
  try dsimp only
  repeat' first
    | with_reducible first
      | assumption | apply ite_storesOk | fail_if_no_progress refine mk_storesOk ?_ rfl rfl rfl rfl rfl
    | fail_if_no_progress dsimp only | split

theorem ctrlFlag_storesOk {s : State} {n : Nat} (hok : s.storesOk = true) : (ctrlFlag s n).storesOk = true := by
  unfold ctrlFlag
  try dsimp only
  repeat' first
    | with_reducible first
      | assumption | apply ite_storesOk | apply twbFlag_storesOk
      | fail_if_no_progress refine mk_storesOk ?_ rfl rfl rfl rfl rfl
    | fail_if_no_progress dsimp only | split

theorem execTwbControllerSclTimeout_nextOk {s : State} (hok : s.storesOk = true) :
    NextOk (execTwbControllerSclTimeout s) := by
  unfold execTwbControllerSclTimeout
  try dsimp only
  repeat' first
    | with_reducible first
      | assumption | apply ite_storesOk | refine nextOk_next ?_ | apply nextOk_ite | apply twbFinish_storesOk
      | apply ctrlFlag_storesOk | apply logHw_storesOk
      | fail_if_no_progress refine mk_storesOk ?_ rfl rfl rfl rfl rfl
    | fail_if_no_progress dsimp only | split

theorem execArbitrationLost_nextOk {s : State} (hok : s.storesOk = true) : NextOk (execArbitrationLost s) := by
  unfold execArbitrationLost
  try dsimp only
  repeat' first
    | with_reducible first
      | assumption | apply ite_storesOk | refine nextOk_next ?_ | apply nextOk_ite | apply twbRetry_storesOk
      | apply ctrlFlag_storesOk | fail_if_no_progress refine mk_storesOk ?_ rfl rfl rfl rfl rfl
    | fail_if_no_progress dsimp only | split

theorem setCbufByte_storesOk {s : State} {i : Nat} {b : Byte} (h : s.storesOk = true) : (setCbufByte s i b).storesOk = true := by
  simp only [State.storesOk, Bool.and_eq_true] at h ⊢
  exact ⟨h.1, swf_sput h.2⟩

theorem execSdaWaitClear_nextOk {s : State} (hok : s.storesOk = true) : NextOk (execSdaWaitClear s) := by
  unfold execSdaWaitClear
  try dsimp only
  repeat' first
    | with_reducible first
      | assumption | apply ite_storesOk | refine nextOk_next ?_ | apply nextOk_ite
      | fail_if_no_progress refine mk_storesOk ?_ rfl rfl rfl rfl rfl
    | fail_if_no_progress dsimp only | split

theorem execTwbTransferDone_nextOk {e : TwbEnd} {s : State} (hok : s.storesOk = true) :
    NextOk (execTwbTransferDone e s) := by
  unfold execTwbTransferDone
  try dsimp only
  repeat' first
    | with_reducible first
      | assumption | apply ite_storesOk | refine nextOk_next ?_ | apply nextOk_ite | apply twbFinish_storesOk
      | apply setCbufByte_storesOk | apply ctrlFlag_storesOk | refine foldl_storesOk ?_ (fun s x h => ?_)
      | fail_if_no_progress refine mk_storesOk ?_ rfl rfl rfl rfl rfl
    | fail_if_no_progress dsimp only | split

theorem cbufNext_storesOk {s : State} (hok : s.storesOk = true) : (cbufNext s).storesOk = true := by
  unfold cbufNext
  try dsimp only
  repeat' first
    | with_reducible first
      | assumption | apply ite_storesOk | apply setF_storesOk
    | fail_if_no_progress dsimp only | split

theorem execBusStuck_nextOk {s : State} (hok : s.storesOk = true) : NextOk (execBusStuck s) := by
  unfold execBusStuck
  try dsimp only
  repeat' first
    | with_reducible first
      | assumption | apply ite_storesOk | refine nextOk_next ?_ | apply nextOk_ite | apply twbFinish_storesOk
    | fail_if_no_progress dsimp only | split

theorem cbufWrite_storesOk {s : State} {w : Word} (hok : s.storesOk = true) : (cbufWrite s w).storesOk = true := by
  unfold cbufWrite
  try dsimp only
  repeat' first
    | with_reducible first
      | assumption | apply ite_storesOk | apply setF_storesOk | apply cbufNext_storesOk
      | apply setCbufByte_storesOk
    | fail_if_no_progress dsimp only | split

theorem execBusRecovery_nextOk {s : State} (hok : s.storesOk = true) : NextOk (execBusRecovery s) := by
  unfold execBusRecovery
  try dsimp only
  repeat' first
    | with_reducible first
      | assumption | apply ite_storesOk | refine nextOk_next ?_ | apply nextOk_ite | apply logHw_storesOk
      | apply ctrlFlag_storesOk | fail_if_no_progress refine mk_storesOk ?_ rfl rfl rfl rfl rfl
    | fail_if_no_progress dsimp only | split

theorem halCountsClear_storesOk {s : State} {v : Word} (hok : s.storesOk = true) :
    (halCountsClear s v).storesOk = true := by
  unfold halCountsClear
  try dsimp only
  repeat' first
    | with_reducible first
      | assumption | apply ite_storesOk | apply setF_storesOk
    | fail_if_no_progress dsimp only | split

theorem halCfgWrite_storesOk {s : State} {w : Word} (hok : s.storesOk = true) : (halCfgWrite s w).storesOk = true := by
  unfold halCfgWrite
  try dsimp only
  repeat' first
    | with_reducible first
      | assumption | apply ite_storesOk | apply setReg_storesOk
      | fail_if_no_progress refine mk_storesOk ?_ rfl rfl rfl rfl rfl
    | fail_if_no_progress dsimp only | split

theorem halFlag_storesOk {s : State} {n : Nat} (hok : s.storesOk = true) : (halFlag s n).storesOk = true := by
  unfold halFlag
  try dsimp only
  repeat' first
    | with_reducible first
      | assumption | apply ite_storesOk | apply raiseFlag_storesOk
    | fail_if_no_progress dsimp only | split

theorem halError_storesOk {s : State} {n : Nat} (hok : s.storesOk = true) : (halError s n).storesOk = true := by
  unfold halError
  try dsimp only
  repeat' first
    | with_reducible first
      | assumption | apply ite_storesOk | apply halFlag_storesOk | apply countUp_storesOk
    | fail_if_no_progress dsimp only | split

theorem halBufTake_storesOk {s : State} (hok : s.storesOk = true) : (halBufTake s).storesOk = true := by
  unfold halBufTake
  try dsimp only
  repeat' first
    | with_reducible first
      | assumption | apply ite_storesOk | fail_if_no_progress refine mk_storesOk ?_ rfl rfl rfl rfl rfl
    | fail_if_no_progress dsimp only | split

theorem halBufWrite_storesOk {s : State} {v : Word} (hok : s.storesOk = true) : (halBufWrite s v).storesOk = true := by
  unfold halBufWrite
  try dsimp only
  repeat' first
    | with_reducible first
      | assumption | apply ite_storesOk | fail_if_no_progress refine mk_storesOk ?_ rfl rfl rfl rfl rfl
    | fail_if_no_progress dsimp only | split

theorem halWakeAsk_storesOk {s : State} (hok : s.storesOk = true) : (halWakeAsk s).storesOk = true := by
  unfold halWakeAsk
  try dsimp only
  repeat' first
    | with_reducible first
      | assumption | apply ite_storesOk | fail_if_no_progress refine mk_storesOk ?_ rfl rfl rfl rfl rfl
    | fail_if_no_progress dsimp only | split

theorem audCountsClear_storesOk {s : State} {v : Word} (hok : s.storesOk = true) :
    (audCountsClear s v).storesOk = true := by
  unfold audCountsClear
  try dsimp only
  repeat' first
    | with_reducible first
      | assumption | apply ite_storesOk | apply setF_storesOk
    | fail_if_no_progress dsimp only | split

theorem audFlag_storesOk {s : State} {n : Nat} (hok : s.storesOk = true) : (audFlag s n).storesOk = true := by
  unfold audFlag
  try dsimp only
  repeat' first
    | with_reducible first
      | assumption | apply ite_storesOk | apply raiseFlag_storesOk
    | fail_if_no_progress dsimp only | split

theorem stripTick_storesOk {s : State} (hok : s.storesOk = true) :
    (stripTick s).storesOk = true := by
  unfold stripTick
  try dsimp only
  repeat' first
    | with_reducible first
      | assumption | apply ite_storesOk | refine foldl_storesOk ?_ (fun s x h => ?_)
      | fail_if_no_progress refine mk_storesOk ?_ rfl rfl rfl rfl rfl
    | fail_if_no_progress dsimp only | split

theorem svcRound_storesOk {s : State} (hok : s.storesOk = true) :
    (svcRound s).storesOk = true := by
  unfold svcRound
  try dsimp only
  repeat' first
    | with_reducible first
      | assumption | apply ite_storesOk | fail_if_no_progress refine mk_storesOk ?_ rfl rfl rfl rfl rfl
    | fail_if_no_progress dsimp only | split

theorem svcTick_storesOk {s : State} (hok : s.storesOk = true) :
    (svcTick s).storesOk = true := by
  unfold svcTick
  try dsimp only
  repeat' first
    | with_reducible first
      | assumption | apply ite_storesOk | apply stripTick_storesOk | apply svcRound_storesOk
      | apply ropStamp_storesOk | fail_if_no_progress refine mk_storesOk ?_ rfl rfl rfl rfl rfl
    | fail_if_no_progress dsimp only | split

end Sys2Proof.Machine
end

