-- ==== Sys2Proof/Laws/KeepRegs.lean ====
section
/-! SUPPORT. That register accesses and operands
keep the stores canonical: one lemma for each operation. -/

set_option linter.unusedTactic false
set_option linter.unreachableTactic false
set_option linter.unusedVariables false

namespace Sys2Proof.Machine

theorem plainWrite_storesOk {s : State} {r : Nat} {v : Word} {be : Nat} (hok : s.storesOk = true) :
    (plainWrite s r v be).storesOk = true := by
  unfold plainWrite
  try dsimp only
  repeat' first
    | with_reducible first
      | assumption | apply ite_storesOk | apply setReg_storesOk
    | fail_if_no_progress dsimp only | split

theorem dcmdWrite_storesOk {s : State} {v : Word} {be : Nat} (hok : s.storesOk = true) :
    (dcmdWrite s v be).storesOk = true := by
  unfold dcmdWrite
  try dsimp only
  repeat' first
    | with_reducible first
      | assumption | apply ite_storesOk | apply plainWrite_storesOk | apply directGo_storesOk
    | fail_if_no_progress dsimp only | split

theorem writeXp_storesOk {s : State} {r : Nat} {v : Word} {be : Nat} (hok : s.storesOk = true) :
    (writeXp s r v be).storesOk = true := by
  unfold writeXp
  try dsimp only
  repeat' first
    | with_reducible first
      | assumption | apply ite_storesOk | apply xpConfigWrite_storesOk | apply dcmdWrite_storesOk
      | apply plainWrite_storesOk
    | fail_if_no_progress dsimp only | split

theorem denyWrite_storesOk {s : State} {src : Source} (hok : s.storesOk = true) :
    (denyWrite s src).storesOk = true := by
  unfold denyWrite
  try dsimp only
  repeat' first
    | with_reducible first
      | assumption | apply ite_storesOk | apply setF_storesOk | apply countUp_storesOk
      | fail_if_no_progress refine mk_storesOk ?_ rfl rfl rfl rfl rfl
    | fail_if_no_progress dsimp only | split

theorem wdogRestart_storesOk {s : State} (hok : s.storesOk = true) : (wdogRestart s).storesOk = true := by
  unfold wdogRestart
  try dsimp only
  repeat' first
    | with_reducible first
      | assumption | apply ite_storesOk | fail_if_no_progress refine mk_storesOk ?_ rfl rfl rfl rfl rfl
    | fail_if_no_progress dsimp only | split

theorem whipStart_storesOk {s : State} {u : Nat} (hok : s.storesOk = true) : (whipStart s u).storesOk = true := by
  unfold whipStart
  try dsimp only
  repeat' first
    | with_reducible first
      | assumption | apply ite_storesOk | apply setWhip_storesOk
      | fail_if_no_progress refine mk_storesOk ?_ rfl rfl rfl rfl rfl
    | fail_if_no_progress dsimp only | split

theorem whipCheck_storesOk {s : State} {u : Nat} (hok : s.storesOk = true) : (whipCheck s u).storesOk = true := by
  unfold whipCheck
  try dsimp only
  repeat' first
    | with_reducible first
      | assumption | apply ite_storesOk | apply whipCompareNow_storesOk | apply setWhip_storesOk
      | fail_if_no_progress refine mk_storesOk ?_ rfl rfl rfl rfl rfl
    | fail_if_no_progress dsimp only | split

theorem whipFeed_storesOk {s : State} {u : Nat} {bs : List Byte} (hok : s.storesOk = true) :
    (whipFeed s u bs).storesOk = true := by
  unfold whipFeed
  try dsimp only
  repeat' first
    | with_reducible first
      | assumption | apply ite_storesOk | apply setB_storesOk | apply setWhip_storesOk
      | fail_if_no_progress refine mk_storesOk ?_ rfl rfl rfl rfl rfl
    | fail_if_no_progress dsimp only | split

theorem whipFeed32_storesOk {s : State} {u : Nat} {v : Word} {be : Nat} (hok : s.storesOk = true) :
    (whipFeed32 s u v be).storesOk = true := by
  unfold whipFeed32
  try dsimp only
  repeat' first
    | with_reducible first
      | assumption | apply ite_storesOk | apply setWhip_storesOk | apply whipFeed_storesOk
      | fail_if_no_progress refine mk_storesOk ?_ rfl rfl rfl rfl rfl
    | fail_if_no_progress dsimp only | split

theorem writeWhip_storesOk {s : State} {r : Nat} {v : Word} {be : Nat} (hok : s.storesOk = true) :
    (writeWhip s r v be).storesOk = true := by
  unfold writeWhip
  try dsimp only
  repeat' first
    | with_reducible first
      | assumption | apply ite_storesOk | apply plainWrite_storesOk | apply whipStart_storesOk
      | apply whipCheck_storesOk | apply whipFeed_storesOk | apply whipFeed32_storesOk
      | fail_if_no_progress refine mk_storesOk ?_ rfl rfl rfl rfl rfl
    | fail_if_no_progress dsimp only | split

theorem ownerWrite_storesOk {s : State} {v : Word} {be : Nat} (hok : s.storesOk = true) :
    (ownerWrite s v be).storesOk = true := by
  unfold ownerWrite
  try dsimp only
  repeat' first
    | with_reducible first
      | assumption | apply ite_storesOk | apply setF_storesOk | apply plainWrite_storesOk
    | fail_if_no_progress dsimp only | split

theorem splCtrlWrite_storesOk {s : State} {src : Source} {v : Word} {be : Nat} (hok : s.storesOk = true) :
    (splCtrlWrite s src v be).1.storesOk = true := by
  unfold splCtrlWrite
  try dsimp only
  repeat' first
    | with_reducible first
      | assumption | apply ite_storesOk | apply spliceCancel_storesOk
      | refine spliceCancel_storesOk' (by assumption) ?_ | apply plainWrite_storesOk | apply spliceHeard_storesOk
    | fail_if_no_progress dsimp only | split

theorem splCtrlWrite_storesOk' {s : State} {src : Source} {v : Word} {be : Nat} {t0 : State}
    {y0 : Bool} (he : splCtrlWrite s src v be = (t0, y0)) (hok : s.storesOk = true) :
    t0.storesOk = true := by
  have := splCtrlWrite_storesOk (s := s) (src := src) (v := v) (be := be) hok
  rwa [he] at this

theorem stageReadEcc_storesOk {s : State} (hok : s.storesOk = true) : (stageReadEcc s).storesOk = true := by
  unfold stageReadEcc
  try dsimp only
  repeat' first
    | with_reducible first
      | assumption | apply ite_storesOk | apply eccRead_storesOk | refine eccRead_storesOk' (by assumption) ?_
      | apply logHw_storesOk | fail_if_no_progress refine mk_storesOk ?_ rfl rfl rfl rfl rfl
    | fail_if_no_progress dsimp only | split

theorem tickWrite_storesOk {s : State} {r : Nat} {w : Word} (hok : s.storesOk = true) :
    (tickWrite s r w).storesOk = true := by
  unfold tickWrite
  try dsimp only
  repeat' first
    | with_reducible first
      | assumption | apply ite_storesOk | fail_if_no_progress refine mk_storesOk ?_ rfl rfl rfl rfl rfl
    | fail_if_no_progress dsimp only | split

theorem faultPinWrite_storesOk {s : State} {v : Word} {be : Nat} (hok : s.storesOk = true) :
    (faultPinWrite s v be).storesOk = true := by
  unfold faultPinWrite
  try dsimp only
  repeat' first
    | with_reducible first
      | assumption | apply ite_storesOk | apply plainWrite_storesOk | apply setB_storesOk
    | fail_if_no_progress dsimp only | split

theorem logHeadWrite_storesOk {s : State} {v : Word} {be : Nat} (hok : s.storesOk = true) :
    (logHeadWrite s v be).storesOk = true := by
  unfold logHeadWrite
  try dsimp only
  repeat' first
    | with_reducible first
      | assumption | apply ite_storesOk | apply plainWrite_storesOk | apply setF_storesOk | apply setB_storesOk
      | refine foldl_storesOk ?_ (fun s x h => ?_) | fail_if_no_progress refine mk_storesOk ?_ rfl rfl rfl rfl rfl
    | fail_if_no_progress dsimp only | split

theorem nudgeWrite_storesOk {s : State} {v : Word} {be : Nat} (hok : s.storesOk = true) :
    (nudgeWrite s v be).storesOk = true := by
  unfold nudgeWrite
  try dsimp only
  repeat' first
    | with_reducible first
      | assumption | apply ite_storesOk | apply plainWrite_storesOk
      | fail_if_no_progress refine mk_storesOk ?_ rfl rfl rfl rfl rfl
    | fail_if_no_progress dsimp only | split

theorem writeSys_storesOk {s : State} {src : Source} {r : Nat} {v : Word} {be : Nat} (hok : s.storesOk = true) :
    (writeSys s src r v be).storesOk = true := by
  unfold writeSys
  try dsimp only
  repeat' first
    | with_reducible first
      | assumption | apply ite_storesOk | apply modeRequest_storesOk | apply sysResetWrite_storesOk
      | apply tickWrite_storesOk | apply faultPinWrite_storesOk | apply ownerWrite_storesOk
      | apply orderWritten_storesOk | apply plainWrite_storesOk | apply nudgeWrite_storesOk
      | apply pulseWrite_storesOk | apply logHeadWrite_storesOk | apply wdogRestart_storesOk
    | fail_if_no_progress dsimp only | split

theorem rateWrite_storesOk {s : State} {v : Word} {be : Nat} (hok : s.storesOk = true) :
    (rateWrite s v be).storesOk = true := by
  unfold rateWrite
  try dsimp only
  repeat' first
    | with_reducible first
      | assumption | apply ite_storesOk | fail_if_no_progress refine mk_storesOk ?_ rfl rfl rfl rfl rfl
    | fail_if_no_progress dsimp only | split

theorem budgetRefuse_storesOk {s : State} (hok : s.storesOk = true) : (budgetRefuse s).storesOk = true := by
  unfold budgetRefuse
  try dsimp only
  repeat' first
    | with_reducible first
      | assumption | apply ite_storesOk | apply setB_storesOk
    | fail_if_no_progress dsimp only | split

theorem budgetWrite_storesOk {s : State} {r : Nat} {v : Word} {be : Nat} (hok : s.storesOk = true) :
    (budgetWrite s r v be).storesOk = true := by
  unfold budgetWrite
  try dsimp only
  repeat' first
    | with_reducible first
      | assumption | apply ite_storesOk | apply tickWrite_storesOk | apply budgetRefuse_storesOk
    | fail_if_no_progress dsimp only | split

theorem layCtrlWrite_storesOk {s : State} {src : Source} {v : Word} {be : Nat} (hok : s.storesOk = true) :
    (layCtrlWrite s src v be).storesOk = true := by
  unfold layCtrlWrite
  try dsimp only
  repeat' first
    | with_reducible first
      | assumption | apply ite_storesOk | apply plainWrite_storesOk | apply setF_storesOk | apply setB_storesOk
      | fail_if_no_progress refine mk_storesOk ?_ rfl rfl rfl rfl rfl
    | fail_if_no_progress dsimp only | split

theorem evtEnWrite_storesOk {s : State} {v : Word} {be : Nat} (hok : s.storesOk = true) :
    (evtEnWrite s v be).storesOk = true := by
  unfold evtEnWrite
  try dsimp only
  repeat' first
    | with_reducible first
      | assumption | apply ite_storesOk | apply plainWrite_storesOk | refine foldl_storesOk ?_ (fun s x h => ?_)
      | fail_if_no_progress refine mk_storesOk ?_ rfl rfl rfl rfl rfl
    | fail_if_no_progress dsimp only | split

theorem cacheCtrlWrite_storesOk {s : State} {v : Word} {be : Nat} (hok : s.storesOk = true) :
    (cacheCtrlWrite s v be).storesOk = true := by
  unfold cacheCtrlWrite
  try dsimp only
  repeat' first
    | with_reducible first
      | assumption | apply ite_storesOk | apply plainWrite_storesOk | apply pinStart_storesOk
      | fail_if_no_progress refine mk_storesOk ?_ rfl rfl rfl rfl rfl
    | fail_if_no_progress dsimp only | split

theorem writeLay_storesOk {s : State} {src : Source} {r : Nat} {v : Word} {be : Nat} (hok : s.storesOk = true) :
    (writeLay s src r v be).1.storesOk = true := by
  unfold writeLay
  try dsimp only
  repeat' first
    | with_reducible first
      | assumption | apply ite_storesOk | apply rateWrite_storesOk | apply budgetWrite_storesOk
      | apply layCtrlWrite_storesOk | apply evtEnWrite_storesOk | apply splCtrlWrite_storesOk
      | refine splCtrlWrite_storesOk' (by assumption) ?_ | apply stagePtrWrite_storesOk
      | refine stagePtrWrite_storesOk' (by assumption) ?_ | apply stageDataWrite_storesOk
      | refine stageDataWrite_storesOk' (by assumption) ?_ | apply commitWrite_storesOk
      | refine commitWrite_storesOk' (by assumption) ?_ | apply spliceHeard_storesOk | apply plainWrite_storesOk
      | apply cacheCtrlWrite_storesOk | apply tickWrite_storesOk
    | fail_if_no_progress dsimp only | split

theorem writeLay_storesOk' {s : State} {src : Source} {r : Nat} {v : Word} {be : Nat} {t0 : State}
    {y0 : Bool} (he : writeLay s src r v be = (t0, y0)) (hok : s.storesOk = true) :
    t0.storesOk = true := by
  have := writeLay_storesOk (s := s) (src := src) (r := r) (v := v) (be := be) hok
  rwa [he] at this

theorem relCfgWrite_storesOk {s : State} {ch : Nat} {v : Word} {be : Nat} (hok : s.storesOk = true) :
    (relCfgWrite s ch v be).storesOk = true := by
  unfold relCfgWrite
  try dsimp only
  repeat' first
    | with_reducible first
      | assumption | apply ite_storesOk | apply chStart_storesOk | apply chStop_storesOk | apply setB_storesOk
      | apply burstEnd_storesOk | apply plainWrite_storesOk
    | fail_if_no_progress dsimp only | split

theorem writeRel_storesOk {s : State} {r : Nat} {v : Word} {be : Nat} (hok : s.storesOk = true) :
    (writeRel s r v be).storesOk = true := by
  unfold writeRel
  try dsimp only
  repeat' first
    | with_reducible first
      | assumption | apply ite_storesOk | apply plainWrite_storesOk | apply relCfgWrite_storesOk
      | fail_if_no_progress refine mk_storesOk ?_ rfl rfl rfl rfl rfl
    | fail_if_no_progress dsimp only | split

theorem whipReset_storesOk {s : State} {u : Nat} (hok : s.storesOk = true) : (whipReset s u).storesOk = true := by
  unfold whipReset
  try dsimp only
  repeat' first
    | with_reducible first
      | assumption | apply ite_storesOk | apply pinSettle_storesOk | apply setReg_storesOk | apply setWhip_storesOk
      | refine foldl_storesOk ?_ (fun s x h => ?_)
    | fail_if_no_progress dsimp only | split

theorem ropCfgWrite_storesOk {s : State} {v : Word} {be : Nat} (hok : s.storesOk = true) :
    (ropCfgWrite s v be).storesOk = true := by
  unfold ropCfgWrite
  try dsimp only
  repeat' first
    | with_reducible first
      | assumption | apply ite_storesOk | apply plainWrite_storesOk | apply whipReset_storesOk
      | apply takeOver_storesOk
    | fail_if_no_progress dsimp only | split

theorem writeRope_storesOk {s : State} {r : Nat} {v : Word} {be : Nat} (hok : s.storesOk = true) :
    (writeRope s r v be).storesOk = true := by
  unfold writeRope
  try dsimp only
  repeat' first
    | with_reducible first
      | assumption | apply ite_storesOk | apply ropCfgWrite_storesOk | apply plainWrite_storesOk
      | apply xferGo_storesOk | apply bufWrite_storesOk
    | fail_if_no_progress dsimp only | split

theorem cbufRegWrite_storesOk {s : State} {v : Word} {be : Nat} (hok : s.storesOk = true) :
    (cbufRegWrite s v be).storesOk = true := by
  unfold cbufRegWrite
  try dsimp only
  repeat' first
    | with_reducible first
      | assumption | apply ite_storesOk | apply cbufWrite_storesOk
    | fail_if_no_progress dsimp only | split

theorem writeTwb_storesOk {s : State} {r : Nat} {v : Word} {be : Nat} (hok : s.storesOk = true) :
    (writeTwb s r v be).storesOk = true := by
  unfold writeTwb
  try dsimp only
  repeat' first
    | with_reducible first
      | assumption | apply ite_storesOk | apply plainWrite_storesOk | apply whipReset_storesOk
      | apply twbGo_storesOk | apply cbufRegWrite_storesOk
    | fail_if_no_progress dsimp only | split

theorem writeHal_storesOk {s : State} {r : Nat} {v : Word} {be : Nat} (hok : s.storesOk = true) :
    (writeHal s r v be).storesOk = true := by
  unfold writeHal
  try dsimp only
  repeat' first
    | with_reducible first
      | assumption | apply ite_storesOk | apply halCfgWrite_storesOk | apply halBufWrite_storesOk
      | apply plainWrite_storesOk | apply halCountsClear_storesOk | apply halWakeAsk_storesOk
    | fail_if_no_progress dsimp only | split

theorem writeAud_storesOk {s : State} {r : Nat} {v : Word} {be : Nat} (hok : s.storesOk = true) :
    (writeAud s r v be).storesOk = true := by
  unfold writeAud
  try dsimp only
  repeat' first
    | with_reducible first
      | assumption | apply ite_storesOk | apply tickWrite_storesOk | apply plainWrite_storesOk
      | apply audCountsClear_storesOk
    | fail_if_no_progress dsimp only | split

theorem writeSink_storesOk {s : State} {r : Nat} {v : Word} {be : Nat} (hok : s.storesOk = true) :
    (writeSink s r v be).storesOk = true := by
  unfold writeSink
  try dsimp only
  repeat' first
    | with_reducible first
      | assumption | apply ite_storesOk | apply plainWrite_storesOk
      | fail_if_no_progress refine mk_storesOk ?_ rfl rfl rfl rfl rfl
    | fail_if_no_progress dsimp only | split

theorem writeMon_storesOk {s : State} {r : Nat} {v : Word} {be : Nat} (hok : s.storesOk = true) :
    (writeMon s r v be).storesOk = true := by
  unfold writeMon
  try dsimp only
  repeat' first
    | with_reducible first
      | assumption | apply ite_storesOk | apply setReg_storesOk
      | fail_if_no_progress refine mk_storesOk ?_ rfl rfl rfl rfl rfl
    | fail_if_no_progress dsimp only | split

theorem writeAt_storesOk {s : State} {src : Source} {r : Nat} {v : Word} {be : Nat} (hok : s.storesOk = true) :
    (writeAt s src r v be).1.storesOk = true := by
  unfold writeAt
  try dsimp only
  repeat' first
    | with_reducible first
      | assumption | apply ite_storesOk | apply writeSys_storesOk | apply writeLay_storesOk
      | refine writeLay_storesOk' (by assumption) ?_ | apply writeRel_storesOk | apply writeXp_storesOk
      | apply writeRope_storesOk | apply writeTwb_storesOk | apply writeHal_storesOk | apply writeAud_storesOk
      | apply writeSink_storesOk | apply writeWhip_storesOk | apply writeMon_storesOk | apply plainWrite_storesOk
      | fail_if_no_progress refine mk_storesOk ?_ rfl rfl rfl rfl rfl
    | fail_if_no_progress dsimp only | split

theorem writeAt_storesOk' {s : State} {src : Source} {r : Nat} {v : Word} {be : Nat} {t0 : State}
    {y0 : Bool} (he : writeAt s src r v be = (t0, y0)) (hok : s.storesOk = true) :
    t0.storesOk = true := by
  have := writeAt_storesOk (s := s) (src := src) (r := r) (v := v) (be := be) hok
  rwa [he] at this

theorem eventTake_storesOk {s : State} (hok : s.storesOk = true) : (eventTake s).storesOk = true := by
  unfold eventTake
  try dsimp only
  repeat' first
    | with_reducible first
      | assumption | apply ite_storesOk | apply setB_storesOk | apply tallySample_storesOk
      | fail_if_no_progress refine mk_storesOk ?_ rfl rfl rfl rfl rfl
    | fail_if_no_progress dsimp only | split

theorem readEffect_storesOk {s : State} {src : Source} {r : Nat} (hok : s.storesOk = true) :
    (readEffect s src r).storesOk = true := by
  unfold readEffect
  try dsimp only
  repeat' first
    | with_reducible first
      | assumption | apply ite_storesOk | apply halBufTake_storesOk | apply bufNext_storesOk
      | apply cbufNext_storesOk | apply eventTake_storesOk | apply stageReadEcc_storesOk
    | fail_if_no_progress dsimp only | split

theorem writeReg_storesOk {src : Source} {r : Nat} {v : Word} {be : Nat} {s : State} (hok : s.storesOk = true) :
    (writeReg src r v be s).1.storesOk = true := by
  unfold writeReg
  try dsimp only
  repeat' first
    | with_reducible first
      | assumption | apply ite_storesOk | apply denyWrite_storesOk | apply writeAt_storesOk
      | refine writeAt_storesOk' (by assumption) ?_ | apply pinSettle_storesOk
    | fail_if_no_progress dsimp only | split

theorem writeReg_storesOk' {src : Source} {r : Nat} {v : Word} {be : Nat} {s : State} {t0 : State}
    {y0 : Bool} (he : writeReg src r v be s = (t0, y0)) (hok : s.storesOk = true) :
    t0.storesOk = true := by
  have := writeReg_storesOk (src := src) (r := r) (v := v) (be := be) (s := s) hok
  rwa [he] at this

theorem regWrite_storesOk {s : State} {src : Source} {r : Nat} {v : Word} (hok : s.storesOk = true) :
    (regWrite s src r v).storesOk = true := by
  unfold regWrite
  try dsimp only
  repeat' first
    | with_reducible first
      | assumption | apply ite_storesOk | apply writeReg_storesOk | refine writeReg_storesOk' (by assumption) ?_
    | fail_if_no_progress dsimp only | split

theorem checkStrand_keeps {cell : Nat} : Keeps (checkStrand cell) := by
  unfold checkStrand
  try dsimp only
  repeat' first
    | with_reducible first
      | assumption | apply ite_storesOk | refine keeps_pure ?_ | apply keeps_throw | apply keeps_stopWith
      | apply keeps_ite | refine keeps_readSt (fun s hs => ?_) | refine keeps_get (fun w hw => ?_)
      | refine keeps_modifySt (fun s hs => ?_) | refine keeps_modify (fun w hw => ?_) | refine keeps_set ?_
      | apply checkEcc_keeps | refine keepsEffect_intro (fun s hok => ?_) | refine keeps_bind ?_ (fun _ => ?_)
    | fail_if_no_progress dsimp only | trivial | split

theorem pageLoc_keeps {lay : Bool} {use : Use} {p : Page} {va : Nat} : Keeps (pageLoc lay use p va) := by
  unfold pageLoc
  try dsimp only
  repeat' first
    | with_reducible first
      | assumption | apply ite_storesOk | refine keeps_pure ?_ | apply keeps_throw | apply keeps_stopWith
      | apply keeps_ite | refine keeps_readSt (fun s hs => ?_) | refine keeps_get (fun w hw => ?_)
      | refine keeps_modifySt (fun s hs => ?_) | refine keeps_modify (fun w hw => ?_) | refine keeps_set ?_
      | apply checkStrand_keeps | apply reelTouch_storesOk | apply extRead_keeps
      | fail_if_no_progress refine mk_storesOk ?_ rfl rfl rfl rfl rfl | refine keepsEffect_intro (fun s hok => ?_)
      | refine keeps_bind ?_ (fun _ => ?_)
    | fail_if_no_progress dsimp only | trivial | split

theorem tapLoc_keeps {lay : Bool} {use : Use} {line : Nat} {d : Nat} : Keeps (tapLoc lay use line d) := by
  unfold tapLoc
  try dsimp only
  repeat' first
    | with_reducible first
      | assumption | apply ite_storesOk | refine keeps_pure ?_ | apply keeps_throw | apply keeps_stopWith
      | apply keeps_ite | refine keeps_readSt (fun s hs => ?_) | refine keeps_get (fun w hw => ?_)
      | refine keeps_modifySt (fun s hs => ?_) | refine keeps_modify (fun w hw => ?_) | refine keeps_set ?_
      | apply checkEcc_keeps | apply translate_keeps | apply pageLoc_keeps
      | refine keepsEffect_intro (fun s hok => ?_) | refine keeps_bind ?_ (fun _ => ?_)
    | fail_if_no_progress dsimp only | trivial | split

theorem writeWindow_storesOk {s : State} {lay : Bool} {high : Bool} {r : Nat} {v : Cell} (hok : s.storesOk = true) :
    (writeWindow s lay high r v).storesOk = true := by
  unfold writeWindow
  try dsimp only
  repeat' first
    | with_reducible first
      | assumption | apply ite_storesOk | apply setCtx_storesOk | apply writeReg_storesOk
      | refine writeReg_storesOk' (by assumption) ?_
      | fail_if_no_progress refine mk_storesOk ?_ rfl rfl rfl rfl rfl
    | fail_if_no_progress dsimp only | split

theorem checkStage_keeps  : Keeps (checkStage ) := by
  unfold checkStage
  try dsimp only
  repeat' first
    | with_reducible first
      | assumption | apply ite_storesOk | refine keeps_pure ?_ | apply keeps_throw | apply keeps_stopWith
      | apply keeps_ite | refine keeps_readSt (fun s hs => ?_) | refine keeps_get (fun w hw => ?_)
      | refine keeps_modifySt (fun s hs => ?_) | refine keeps_modify (fun w hw => ?_) | refine keeps_set ?_
      | apply checkEcc_keeps | fail_if_no_progress refine mk_storesOk ?_ rfl rfl rfl rfl rfl
      | refine keepsEffect_intro (fun s hok => ?_) | refine keeps_bind ?_ (fun _ => ?_)
    | fail_if_no_progress dsimp only | trivial | split

theorem strandLoc_keeps {lay : Bool} {use : Use} {va : Nat} : Keeps (strandLoc lay use va) := by
  unfold strandLoc
  try dsimp only
  repeat' first
    | with_reducible first
      | assumption | apply ite_storesOk | refine keeps_pure ?_ | apply keeps_throw | apply keeps_stopWith
      | apply keeps_ite | refine keeps_readSt (fun s hs => ?_) | refine keeps_get (fun w hw => ?_)
      | refine keeps_modifySt (fun s hs => ?_) | refine keeps_modify (fun w hw => ?_) | refine keeps_set ?_
      | apply checkEcc_keeps | apply checkStage_keeps | apply translate_keeps | apply pageLoc_keeps
      | fail_if_no_progress refine mk_storesOk ?_ rfl rfl rfl rfl rfl | refine keepsEffect_intro (fun s hok => ?_)
      | refine keeps_bind ?_ (fun _ => ?_)
    | fail_if_no_progress dsimp only | trivial | split

theorem tapCell_keeps {k : Nat} : Keeps (tapCell k) := by
  unfold tapCell
  try dsimp only
  repeat' first
    | with_reducible first
      | assumption | apply ite_storesOk | refine keeps_pure ?_ | apply keeps_throw | apply keeps_stopWith
      | apply keeps_ite | refine keeps_readSt (fun s hs => ?_) | refine keeps_get (fun w hw => ?_)
      | refine keeps_modifySt (fun s hs => ?_) | refine keeps_modify (fun w hw => ?_) | refine keeps_set ?_
      | apply checkEcc_keeps | refine keepsEffect_intro (fun s hok => ?_) | refine keeps_bind ?_ (fun _ => ?_)
    | fail_if_no_progress dsimp only | trivial | split

theorem locOf_keeps {lay : Bool} {c : Ctx} {use : Use} {o : Opnd} {k : Nat} : Keeps (locOf lay c use o k) := by
  unfold locOf
  try dsimp only
  repeat' first
    | with_reducible first
      | assumption | apply ite_storesOk | refine keeps_pure ?_ | apply keeps_throw | apply keeps_stopWith
      | apply keeps_ite | refine keeps_readSt (fun s hs => ?_) | refine keeps_get (fun w hw => ?_)
      | refine keeps_modifySt (fun s hs => ?_) | refine keeps_modify (fun w hw => ?_) | refine keeps_set ?_
      | apply checkEcc_keeps | apply strandLoc_keeps | apply tapLoc_keeps | apply tapCell_keeps
      | fail_if_no_progress refine mk_storesOk ?_ rfl rfl rfl rfl rfl | refine keepsEffect_intro (fun s hok => ?_)
      | refine keeps_bind ?_ (fun _ => ?_)
    | fail_if_no_progress dsimp only | trivial | split

theorem readWindow_storesOk {s : State} {lay : Bool} {high : Bool} {r : Nat} (hok : s.storesOk = true) :
    (readWindow s lay high r).2.storesOk = true := by
  unfold readWindow
  try dsimp only
  repeat' first
    | with_reducible first
      | assumption | apply ite_storesOk | apply setCtx_storesOk | apply readEffect_storesOk
      | fail_if_no_progress refine mk_storesOk ?_ rfl rfl rfl rfl rfl
    | fail_if_no_progress dsimp only | split

theorem readWindow_storesOk' {s : State} {lay : Bool} {high : Bool} {r : Nat} {t0 : State}
    {y0 : Cell} (he : readWindow s lay high r = (y0, t0)) (hok : s.storesOk = true) :
    t0.storesOk = true := by
  have := readWindow_storesOk (s := s) (lay := lay) (high := high) (r := r) hok
  rwa [he] at this

theorem readLoc_storesOk {s : State} {lay : Bool} {m : Mods} {l : Loc} (hok : s.storesOk = true) :
    (readLoc s lay m l).2.storesOk = true := by
  unfold readLoc
  try dsimp only
  repeat' first
    | with_reducible first
      | assumption | apply ite_storesOk | apply readWindow_storesOk
      | refine readWindow_storesOk' (by assumption) ?_
      | fail_if_no_progress refine mk_storesOk ?_ rfl rfl rfl rfl rfl
    | fail_if_no_progress dsimp only | split

theorem readLoc_storesOk' {s : State} {lay : Bool} {m : Mods} {l : Loc} {t0 : State}
    {y0 : Cell} (he : readLoc s lay m l = (y0, t0)) (hok : s.storesOk = true) :
    t0.storesOk = true := by
  have := readLoc_storesOk (s := s) (lay := lay) (m := m) (l := l) hok
  rwa [he] at this

theorem deckPut_wf {m : Mem} {n : Nat} {v : Cell} (h : m.wf = true) :
    (eccClear { m with deck := sput zero m.deck n v } .deck n).wf = true := by
  rw [memWf_iff] at h; rw [eccClear_wf, memWf_iff]; simp_all [swf_sput]

theorem writeLoc_storesOk {s : State} {lay int : Bool} {l : Loc} {v : Cell} (h : s.storesOk = true) :
    (writeLoc s lay int l v).storesOk = true := by
  unfold writeLoc
  split
  · exact mem_storesOk h deckPut_wf rfl rfl rfl rfl
  · exact mk_storesOk h rfl rfl rfl rfl rfl
  · exact extStore_storesOk h
  · exact writePort_storesOk h
  · refine mem_storesOk h (fun hm => ?_) rfl rfl rfl rfl
    rw [memWf_iff] at hm; dsimp only; rw [eccClear_wf, memWf_iff]; simp_all [swf_sput]
  · exact writeWindow_storesOk h
  · exact writeWindow_storesOk h
  · exact setCtx_storesOk h
  · exact setCtx_storesOk h
  · exact setCtx_storesOk h
  all_goals exact h

theorem layStopAtFence_storesOk {s : State} {abandoned : Bool} (hok : s.storesOk = true) :
    (layStopAtFence s abandoned).storesOk = true := by
  unfold layStopAtFence
  try dsimp only
  repeat' first
    | with_reducible first
      | assumption | apply ite_storesOk | apply logHw_storesOk | apply setB_storesOk | apply countUp_storesOk
      | fail_if_no_progress refine mk_storesOk ?_ rfl rfl rfl rfl rfl
    | fail_if_no_progress dsimp only | split

theorem runToFence_storesOk {s : State} (hok : s.storesOk = true) : (runToFence s).storesOk = true := by
  unfold runToFence
  try dsimp only
  repeat' first
    | with_reducible first
      | assumption | apply ite_storesOk | apply layStopAtFence_storesOk | apply passSlots_storesOk
    | fail_if_no_progress dsimp only | split

theorem execFrameOverrun_nextOk {s : State} (hok : s.storesOk = true) : NextOk (execFrameOverrun s) := by
  unfold execFrameOverrun
  try dsimp only
  repeat' first
    | with_reducible first
      | assumption | apply ite_storesOk | refine nextOk_next ?_ | apply nextOk_ite | apply runToFence_storesOk
    | fail_if_no_progress dsimp only | split

theorem xpSettle_storesOk {s : State} (hok : s.storesOk = true) :
    (xpSettle s).storesOk = true := by
  unfold xpSettle
  try dsimp only
  repeat' first
    | with_reducible first
      | assumption | apply ite_storesOk | fail_if_no_progress refine mk_storesOk ?_ rfl rfl rfl rfl rfl
    | fail_if_no_progress dsimp only | split

end Sys2Proof.Machine
end

