-- ==== Sys2Proof/Laws/KeepLay.lean ====
section
/-! SUPPORT. That the instructions of the Lay and Slack
keep the stores canonical: one lemma for each operation. -/

set_option linter.unusedTactic false
set_option linter.unreachableTactic false
set_option linter.unusedVariables false

namespace Sys2Proof.Machine

theorem fetchCheck_keeps {lay : Bool} {len : Nat} : Keeps (fetchCheck lay len) := by
  unfold fetchCheck
  try dsimp only
  repeat' first
    | with_reducible first
      | assumption | apply ite_storesOk | refine keeps_pure ?_ | apply keeps_throw | apply keeps_stopWith
      | apply keeps_ite | refine keeps_readSt (fun s hs => ?_) | refine keeps_get (fun w hw => ?_)
      | refine keeps_modifySt (fun s hs => ?_) | refine keeps_modify (fun w hw => ?_) | refine keeps_set ?_
      | apply checkEcc_keeps | refine keepsEffect_intro (fun s hok => ?_) | refine keeps_bind ?_ (fun _ => ?_)
    | fail_if_no_progress dsimp only | trivial | split

theorem stepCount_storesOk {s : State} (hok : s.storesOk = true) : (stepCount s).storesOk = true := by
  unfold stepCount
  try dsimp only
  repeat' first
    | with_reducible first
      | assumption | apply ite_storesOk | apply setF_storesOk | apply setB_storesOk
      | fail_if_no_progress refine mk_storesOk ?_ rfl rfl rfl rfl rfl
    | fail_if_no_progress dsimp only | split

theorem noteCoil_storesOk {s : State} (hok : s.storesOk = true) : (noteCoil s).storesOk = true := by
  unfold noteCoil
  try dsimp only
  repeat' first
    | with_reducible first
      | assumption | apply ite_storesOk | fail_if_no_progress refine mk_storesOk ?_ rfl rfl rfl rfl rfl
    | fail_if_no_progress dsimp only | split

theorem finish_storesOk {s : State} {lay : Bool} {len : Nat} {ctl : Ctl} (hok : s.storesOk = true) :
    (finish s lay len ctl).storesOk = true := by
  unfold finish
  try dsimp only
  repeat' first
    | with_reducible first
      | assumption | apply ite_storesOk | apply setCtx_storesOk | apply stepCount_storesOk
      | apply noteCoil_storesOk | apply slackReadsEnd_storesOk
      | fail_if_no_progress refine mk_storesOk ?_ rfl rfl rfl rfl rfl
    | fail_if_no_progress dsimp only | split

theorem annul_storesOk {s : State} {lay : Bool} {len : Nat} {code : FaultCode} {detail : Word}
    {va : Option Nat} (hok : s.storesOk = true) :
    (annul s lay len code detail va).storesOk = true := by
  unfold annul
  try dsimp only
  repeat' first
    | with_reducible first
      | assumption | apply ite_storesOk | apply noteMapFault_storesOk | apply logStep_storesOk
      | apply logInsert_storesOk | apply passSlots_storesOk | apply finish_storesOk
      | fail_if_no_progress refine mk_storesOk ?_ rfl rfl rfl rfl rfl
    | fail_if_no_progress dsimp only | split

theorem outOfSlots_storesOk {s : State} {lay abandoned : Bool} (hok : s.storesOk = true) :
    (outOfSlots s lay abandoned).storesOk = true := by
  unfold outOfSlots
  try dsimp only
  repeat' first
    | with_reducible first
      | assumption | apply ite_storesOk | apply layStopAtFence_storesOk
      | fail_if_no_progress refine mk_storesOk ?_ rfl rfl rfl rfl rfl
    | fail_if_no_progress dsimp only | split

theorem require_keeps {opc : Nat} {f : Form} {ok : Bool} : Keeps (require opc f ok) := by
  unfold require
  try dsimp only
  repeat' first
    | with_reducible first
      | assumption | apply ite_storesOk | refine keeps_pure ?_ | apply keeps_throw | apply keeps_stopWith
      | apply keeps_ite | refine keeps_readSt (fun s hs => ?_) | refine keeps_get (fun w hw => ?_)
      | refine keeps_modifySt (fun s hs => ?_) | refine keeps_modify (fun w hw => ?_) | refine keeps_set ?_
      | refine keepsEffect_intro (fun s hok => ?_) | refine keeps_bind ?_ (fun _ => ?_)
    | fail_if_no_progress dsimp only | trivial | split

theorem illegal_keeps {opc : Nat} {f : Form} : KeepsTo KeepsEffect (illegal opc f) := by
  unfold illegal
  try dsimp only
  repeat' first
    | with_reducible first
      | assumption | apply ite_storesOk | refine keeps_pure ?_ | apply keeps_throw | apply keeps_stopWith
      | apply keeps_ite | refine keeps_readSt (fun s hs => ?_) | refine keeps_get (fun w hw => ?_)
      | refine keeps_modifySt (fun s hs => ?_) | refine keeps_modify (fun w hw => ?_) | refine keeps_set ?_
      | refine keepsEffect_intro (fun s hok => ?_) | refine keeps_bind ?_ (fun _ => ?_)
    | fail_if_no_progress dsimp only | trivial | split

theorem writeResult_storesOk {s : State} {lay : Bool} {m : Mods} {posts : List (Nat × Cell)} {dst : Option Loc}
    {res : Res24} (hok : s.storesOk = true) :
    (writeResult s lay m posts dst res).storesOk = true := by
  unfold writeResult
  try dsimp only
  repeat' first
    | with_reducible first
      | assumption | apply ite_storesOk | apply passSlots_storesOk | apply setCtx_storesOk
      | apply writeLoc_storesOk | fail_if_no_progress refine mk_storesOk ?_ rfl rfl rfl rfl rfl
    | fail_if_no_progress dsimp only | split

theorem staPlan_keeps {f : Form} {lay : Bool} {c : Ctx} : KeepsTo KeepsEffect (staPlan f lay c) := by
  unfold staPlan
  try dsimp only
  repeat' first
    | with_reducible first
      | assumption | apply ite_storesOk | refine keeps_pure ?_ | apply keeps_throw | apply keeps_stopWith
      | apply keeps_ite | refine keeps_readSt (fun s hs => ?_) | refine keeps_get (fun w hw => ?_)
      | refine keeps_modifySt (fun s hs => ?_) | refine keeps_modify (fun w hw => ?_) | refine keeps_set ?_
      | apply require_keeps | apply locOf_keeps | apply writeResult_storesOk
      | refine keepsEffect_intro (fun s hok => ?_) | refine keeps_bind ?_ (fun _ => ?_)
    | fail_if_no_progress dsimp only | trivial | split

theorem ldaPlan_keeps {f : Form} {lay : Bool} {c : Ctx} : KeepsTo KeepsEffect (ldaPlan f lay c) := by
  unfold ldaPlan
  try dsimp only
  repeat' first
    | with_reducible first
      | assumption | apply ite_storesOk | refine keeps_pure ?_ | apply keeps_throw | apply keeps_stopWith
      | apply keeps_ite | refine keeps_readSt (fun s hs => ?_) | refine keeps_get (fun w hw => ?_)
      | refine keeps_modifySt (fun s hs => ?_) | refine keeps_modify (fun w hw => ?_) | refine keeps_set ?_
      | apply require_keeps | apply locOf_keeps | apply readLoc_storesOk
      | refine readLoc_storesOk' (by assumption) ?_ | apply passSlots_storesOk | apply setCtx_storesOk
      | fail_if_no_progress refine mk_storesOk ?_ rfl rfl rfl rfl rfl | refine keepsEffect_intro (fun s hok => ?_)
      | refine keeps_bind ?_ (fun _ => ?_)
    | fail_if_no_progress dsimp only | trivial | split

theorem aluPlan_keeps {op : Alu} {opc : Nat} {f : Form} {lay : Bool} {c : Ctx} : KeepsTo KeepsEffect (aluPlan op opc f lay c) := by
  unfold aluPlan
  try dsimp only
  repeat' first
    | with_reducible first
      | assumption | apply ite_storesOk | refine keeps_pure ?_ | apply keeps_throw | apply keeps_stopWith
      | apply keeps_ite | refine keeps_readSt (fun s hs => ?_) | refine keeps_get (fun w hw => ?_)
      | refine keeps_modifySt (fun s hs => ?_) | refine keeps_modify (fun w hw => ?_) | refine keeps_set ?_
      | apply require_keeps | apply locOf_keeps | apply readLoc_storesOk
      | refine readLoc_storesOk' (by assumption) ?_ | apply writeResult_storesOk
      | fail_if_no_progress refine mk_storesOk ?_ rfl rfl rfl rfl rfl | refine keepsEffect_intro (fun s hok => ?_)
      | refine keeps_bind ?_ (fun _ => ?_)
    | fail_if_no_progress dsimp only | trivial | split

theorem moviPlan_keeps {f : Form} {lay : Bool} {c : Ctx} : KeepsTo KeepsEffect (moviPlan f lay c) := by
  unfold moviPlan
  try dsimp only
  repeat' first
    | with_reducible first
      | assumption | apply ite_storesOk | refine keeps_pure ?_ | apply keeps_throw | apply keeps_stopWith
      | apply keeps_ite | refine keeps_readSt (fun s hs => ?_) | refine keeps_get (fun w hw => ?_)
      | refine keeps_modifySt (fun s hs => ?_) | refine keeps_modify (fun w hw => ?_) | refine keeps_set ?_
      | apply illegal_keeps | apply require_keeps | apply locOf_keeps | apply writeResult_storesOk
      | fail_if_no_progress refine mk_storesOk ?_ rfl rfl rfl rfl rfl | refine keepsEffect_intro (fun s hok => ?_)
      | refine keeps_bind ?_ (fun _ => ?_)
    | fail_if_no_progress dsimp only | trivial | split

theorem destOf_keeps {lay : Bool} {c : Ctx} {d : Opnd} : Keeps (destOf lay c d) := by
  intro w hw
  have h := locOf_keeps (lay := lay) (c := c) (use := .write) (o := d) (k := 0) w hw
  refine ⟨?_, fun _ _ => trivial⟩
  rcases e : (locOf lay c .write d 0).run.run w with ⟨r, w'⟩
  rw [e] at h
  have : (destOf lay c d).run.run w = match r with
      | .ok l => (.ok (.ok l), w')
      | .error .abandon => (.error .abandon, w')
      | .error e => (.ok (.error e), w') := by
    show destOf lay c d w = _
    unfold destOf
    have e' : (locOf lay c .write d 0).run w = (r, w') := e
    rw [e']
    rcases r with (_ | _) | _ <;> rfl
  rw [this]
  rcases r with (_ | _) | _ <;> exact h.1

theorem destLoc_keeps {x : Except Stop Loc} : Keeps (destLoc x) := by
  cases x
  · exact keeps_throw
  · exact keeps_pure trivial

theorem tluPlan_keeps {f : Form} {lay : Bool} {c : Ctx} : KeepsTo KeepsEffect (tluPlan f lay c) := by
  unfold tluPlan
  try dsimp only
  repeat' first
    | with_reducible first
      | assumption | apply ite_storesOk | refine keeps_pure ?_ | apply keeps_throw | apply keeps_stopWith
      | apply keeps_ite | refine keeps_readSt (fun s hs => ?_) | refine keeps_get (fun w hw => ?_)
      | refine keeps_modifySt (fun s hs => ?_) | refine keeps_modify (fun w hw => ?_) | refine keeps_set ?_
      | apply require_keeps | apply locOf_keeps | apply destOf_keeps | apply passSlots_storesOk
      | apply checkEcc_keeps | apply destLoc_keeps | apply readLoc_storesOk
      | refine readLoc_storesOk' (by assumption) ?_ | apply writeResult_storesOk
      | fail_if_no_progress refine mk_storesOk ?_ rfl rfl rfl rfl rfl | refine keepsEffect_intro (fun s hok => ?_)
      | refine keeps_bind ?_ (fun _ => ?_)
    | fail_if_no_progress dsimp only | trivial | split

theorem readModifyPlan_keeps {opc : Nat} {mults : Nat} {res : Cell → Cell → Cell → Mods → Res24} {f : Form} {lay : Bool} {c : Ctx} : KeepsTo KeepsEffect (readModifyPlan opc mults res f lay c) := by
  unfold readModifyPlan
  try dsimp only
  repeat' first
    | with_reducible first
      | assumption | apply ite_storesOk | refine keeps_pure ?_ | apply keeps_throw | apply keeps_stopWith
      | apply keeps_ite | refine keeps_readSt (fun s hs => ?_) | refine keeps_get (fun w hw => ?_)
      | refine keeps_modifySt (fun s hs => ?_) | refine keeps_modify (fun w hw => ?_) | refine keeps_set ?_
      | apply require_keeps | apply locOf_keeps | apply readLoc_storesOk
      | refine readLoc_storesOk' (by assumption) ?_ | apply writeResult_storesOk
      | fail_if_no_progress refine mk_storesOk ?_ rfl rfl rfl rfl rfl | refine keepsEffect_intro (fun s hok => ?_)
      | refine keeps_bind ?_ (fun _ => ?_)
    | fail_if_no_progress dsimp only | trivial | split

theorem scalePlan_keeps {f : Form} {lay : Bool} {c : Ctx} : KeepsTo KeepsEffect (scalePlan f lay c) := by
  unfold scalePlan
  try dsimp only
  repeat' first
    | with_reducible first
      | assumption | apply ite_storesOk | refine keeps_pure ?_ | apply keeps_throw | apply keeps_stopWith
      | apply keeps_ite | refine keeps_readSt (fun s hs => ?_) | refine keeps_get (fun w hw => ?_)
      | refine keeps_modifySt (fun s hs => ?_) | refine keeps_modify (fun w hw => ?_) | refine keeps_set ?_
      | apply require_keeps | apply locOf_keeps | apply destOf_keeps | apply passSlots_storesOk
      | apply destLoc_keeps | apply readLoc_storesOk | refine readLoc_storesOk' (by assumption) ?_
      | apply setCtx_storesOk | apply writeResult_storesOk
      | fail_if_no_progress refine mk_storesOk ?_ rfl rfl rfl rfl rfl | refine keepsEffect_intro (fun s hok => ?_)
      | refine keeps_bind ?_ (fun _ => ?_)
    | fail_if_no_progress dsimp only | trivial | split

theorem runLocs_keeps {lay : Bool} {c : Ctx} {o : Opnd} {n k : Nat} : Keeps (runLocs lay c o n k) := by
  induction n generalizing k with
  | zero => exact keeps_pure trivial
  | succ n ih => exact keeps_bind locOf_keeps (fun _ => keeps_bind ih (fun _ => keeps_pure trivial))

theorem readLocs_storesOk {s : State} {lay : Bool} {m : Mods} {ls : List Loc} (h : s.storesOk = true) :
    (readLocs s lay m ls).2.storesOk = true := by
  induction ls generalizing s with
  | nil => exact h
  | cons l ls ih => exact ih (readLoc_storesOk h)

theorem mulPlan_keeps {op : MulOp} {opc : Nat} {f : Form} {lay : Bool} {c : Ctx} : KeepsTo KeepsEffect (mulPlan op opc f lay c) := by
  unfold mulPlan
  try dsimp only
  repeat' first
    | with_reducible first
      | assumption | apply ite_storesOk | refine keeps_pure ?_ | apply keeps_throw | apply keeps_stopWith
      | apply keeps_ite | refine keeps_readSt (fun s hs => ?_) | refine keeps_get (fun w hw => ?_)
      | refine keeps_modifySt (fun s hs => ?_) | refine keeps_modify (fun w hw => ?_) | refine keeps_set ?_
      | apply require_keeps | apply runLocs_keeps | apply readLocs_storesOk | apply passSlots_storesOk
      | apply setCtx_storesOk | fail_if_no_progress refine mk_storesOk ?_ rfl rfl rfl rfl rfl
      | refine keepsEffect_intro (fun s hok => ?_) | refine keeps_bind ?_ (fun _ => ?_)
    | fail_if_no_progress dsimp only | trivial | split

theorem runAccess_storesOk {s : State} {lay silent : Bool} {acc : Run Unit} (ha : Keeps acc) (h : s.storesOk = true) :
    (runAccess s lay silent acc).storesOk = true := by
  have hw := (ha { st := s, stall := 0, silent := silent } h).1
  have hm : ∀ u : State, u.storesOk = true →
      (if lay then { u with lay := { u.lay with tainted := true } } else u).storesOk = true := fun u hu =>
    ite_storesOk (mk_storesOk hu rfl rfl rfl rfl rfl) hu
  have he : ∀ u : State, u.storesOk = true → (if lay then u else slackReadsEnd u).storesOk = true := fun u hu =>
    ite_storesOk hu (slackReadsEnd_storesOk hu)
  unfold runAccess
  dsimp only
  split <;> rename_i e <;> rw [e] at hw
  · exact he _ (passSlots_storesOk hw)
  · refine hm _ (logPush_storesOk ?_)
    split
    · exact noteMapFault_storesOk (he _ (passSlots_storesOk hw))
    · exact he _ (passSlots_storesOk hw)
  · exact outOfSlots_storesOk (passSlots_storesOk hw)

theorem execStrandWriteBack_nextOk {s : State} (hok : s.storesOk = true) : NextOk (execStrandWriteBack s) := by
  unfold execStrandWriteBack
  try dsimp only
  repeat' first
    | with_reducible first
      | assumption | apply ite_storesOk | refine nextOk_next ?_ | apply nextOk_ite | apply storeCommit_storesOk
    | fail_if_no_progress dsimp only | split

theorem execEccWriteBack_nextOk {s : State} (h : s.storesOk = true) : NextOk (execEccWriteBack s) := by
  unfold execEccWriteBack
  split
  · exact nextOk_next (mem_storesOk h (fun hm => hm) rfl rfl rfl rfl)
  · exact nextOk_next h

theorem execMultiplyComplete_nextOk {s : State} (hok : s.storesOk = true) : NextOk (execMultiplyComplete s) := by
  unfold execMultiplyComplete
  try dsimp only
  repeat' first
    | with_reducible first
      | assumption | apply ite_storesOk | refine nextOk_next ?_ | apply nextOk_ite | apply passSlots_storesOk
      | fail_if_no_progress refine mk_storesOk ?_ rfl rfl rfl rfl rfl
    | fail_if_no_progress dsimp only | split

theorem actPlan_keeps {opc top : Nat} {act : State → Bool → Nat → Cell → State} {f : Form} {lay : Bool} {c : Ctx}
    (ha : ∀ s lay n x, s.storesOk = true → (act s lay n x).storesOk = true) :
    KeepsTo KeepsEffect (actPlan opc top act f lay c) := by
  unfold actPlan
  refine keeps_bind require_keeps (fun _ => keeps_bind locOf_keeps (fun _ => keeps_pure ?_))
  exact fun s hs => ha _ _ _ _ (setCtx_storesOk (passSlots_storesOk (readLoc_storesOk hs)))

theorem splcWrite_storesOk {s : State} {lay : Bool} {n : Nat} {x : Cell} (hok : s.storesOk = true) :
    (splcWrite s lay n x).storesOk = true := by
  unfold splcWrite
  try dsimp only
  repeat' first
    | with_reducible first
      | assumption | apply ite_storesOk | apply writeReg_storesOk | refine writeReg_storesOk' (by assumption) ?_
    | fail_if_no_progress dsimp only | split

theorem layEnd_storesOk {s : State} (hok : s.storesOk = true) : (layEnd s).1.storesOk = true := by
  unfold layEnd
  try dsimp only
  repeat' first
    | with_reducible first
      | assumption | apply ite_storesOk | apply passSlots_storesOk | apply setF_storesOk | apply setB_storesOk
      | fail_if_no_progress refine mk_storesOk ?_ rfl rfl rfl rfl rfl
    | fail_if_no_progress dsimp only | split

theorem layEnd_storesOk' {s : State} {t0 : State} {y0 : Ctl} (he : layEnd s = (t0, y0)) (hok : s.storesOk = true) :
    t0.storesOk = true := by
  have := layEnd_storesOk (s := s) hok
  rwa [he] at this

theorem evtPlan_keeps {f : Form} {lay : Bool} {c : Ctx} :
    KeepsTo KeepsEffect (actPlan 0x25 15 (fun s _ n x => postEvent s n (fun _ => x)) f lay c) :=
  actPlan_keeps (fun _ _ _ _ h => postEvent_storesOk h)

theorem callPlan_keeps {f : Form} {lay : Bool} {c : Ctx} : KeepsTo KeepsEffect (callPlan f lay c) := by
  unfold callPlan
  try dsimp only
  repeat' first
    | with_reducible first
      | assumption | apply ite_storesOk | refine keeps_pure ?_ | apply keeps_throw | apply keeps_stopWith
      | apply keeps_ite | refine keeps_readSt (fun s hs => ?_) | refine keeps_get (fun w hw => ?_)
      | refine keeps_modifySt (fun s hs => ?_) | refine keeps_modify (fun w hw => ?_) | refine keeps_set ?_
      | apply require_keeps | apply passSlots_storesOk | apply setCtx_storesOk
      | fail_if_no_progress refine mk_storesOk ?_ rfl rfl rfl rfl rfl | refine keepsEffect_intro (fun s hok => ?_)
      | refine keeps_bind ?_ (fun _ => ?_)
    | fail_if_no_progress dsimp only | trivial | split

theorem loopPlan_keeps {f : Form} {lay : Bool} {c : Ctx} : KeepsTo KeepsEffect (loopPlan f lay c) := by
  unfold loopPlan
  try dsimp only
  repeat' first
    | with_reducible first
      | assumption | apply ite_storesOk | refine keeps_pure ?_ | apply keeps_throw | apply keeps_stopWith
      | apply keeps_ite | refine keeps_readSt (fun s hs => ?_) | refine keeps_get (fun w hw => ?_)
      | refine keeps_modifySt (fun s hs => ?_) | refine keeps_modify (fun w hw => ?_) | refine keeps_set ?_
      | apply require_keeps | apply locOf_keeps | apply passSlots_storesOk | apply readLoc_storesOk
      | refine readLoc_storesOk' (by assumption) ?_ | apply setCtx_storesOk
      | fail_if_no_progress refine mk_storesOk ?_ rfl rfl rfl rfl rfl | refine keepsEffect_intro (fun s hok => ?_)
      | refine keeps_bind ?_ (fun _ => ?_)
    | fail_if_no_progress dsimp only | trivial | split

theorem retPlan_keeps {f : Form} {lay : Bool} {c : Ctx} : KeepsTo KeepsEffect (retPlan f lay c) := by
  unfold retPlan
  try dsimp only
  repeat' first
    | with_reducible first
      | assumption | apply ite_storesOk | refine keeps_pure ?_ | apply keeps_throw | apply keeps_stopWith
      | apply keeps_ite | refine keeps_readSt (fun s hs => ?_) | refine keeps_get (fun w hw => ?_)
      | refine keeps_modifySt (fun s hs => ?_) | refine keeps_modify (fun w hw => ?_) | refine keeps_set ?_
      | apply require_keeps | apply passSlots_storesOk | apply setCtx_storesOk
      | fail_if_no_progress refine mk_storesOk ?_ rfl rfl rfl rfl rfl | refine keepsEffect_intro (fun s hok => ?_)
      | refine keeps_bind ?_ (fun _ => ?_)
    | fail_if_no_progress dsimp only | trivial | split

end Sys2Proof.Machine
end

