-- ==== Sys2Proof/Laws/KeepCommands.lean ====
section
/-! SUPPORT. That the loader, the rope, the two-wire bus, the Halyard port, audio, the ROM Lays, the frame tick and register commands
keep the stores canonical: one lemma for each operation. -/

set_option linter.unusedTactic false
set_option linter.unreachableTactic false
set_option linter.unusedVariables false

namespace Sys2Proof.Machine

theorem romFetch_storesOk {s : State} {lay : Bool} {r : RamId} {a : Nat} (hok : s.storesOk = true) :
    (romFetch s lay r a).2.storesOk = true := by
  unfold romFetch
  try dsimp only
  repeat' first
    | with_reducible first
      | assumption | apply ite_storesOk | apply eccRead_storesOk | refine eccRead_storesOk' (by assumption) ?_
      | apply logPush_storesOk | fail_if_no_progress refine mk_storesOk ?_ rfl rfl rfl rfl rfl
    | fail_if_no_progress dsimp only | split

theorem romFetch_storesOk' {s : State} {lay : Bool} {r : RamId} {a : Nat} {y0 : Bool} {t0 : State}
    (he : romFetch s lay r a = (y0, t0)) (hok : s.storesOk = true) : t0.storesOk = true := by
  have := romFetch_storesOk (s := s) (lay := lay) (r := r) (a := a) hok
  rwa [he] at this

theorem romCells_storesOk {s0 : State} (hok : s0.storesOk = true) :
    (romCells s0).storesOk = true := by
  unfold romCells
  try dsimp only
  repeat' first
    | with_reducible first
      | assumption | apply ite_storesOk | apply romFetch_storesOk | refine romFetch_storesOk' (by assumption) ?_
      | apply setPort_storesOk | apply setF_storesOk | refine foldl_storesOk ?_ (fun s x h => ?_)
    | fail_if_no_progress dsimp only | split

theorem romWrite_storesOk {s : State} {n : Nat} {level : Nat} (hok : s.storesOk = true) :
    (romWrite s n level).storesOk = true := by
  unfold romWrite
  try dsimp only
  repeat' first
    | with_reducible first
      | assumption | apply ite_storesOk | apply setPort_storesOk | apply setF_storesOk
    | fail_if_no_progress dsimp only | split

theorem romLight_storesOk {s : State} (hok : s.storesOk = true) : (romLight s).storesOk = true := by
  unfold romLight
  try dsimp only
  repeat' first
    | with_reducible first
      | assumption | apply ite_storesOk | apply romCells_storesOk | apply romWrite_storesOk
      | refine foldl_storesOk ?_ (fun s x h => ?_) | fail_if_no_progress refine mk_storesOk ?_ rfl rfl rfl rfl rfl
    | fail_if_no_progress dsimp only | split

theorem quietCheck_storesOk {s : State} (hok : s.storesOk = true) : (quietCheck s).storesOk = true := by
  unfold quietCheck
  try dsimp only
  repeat' first
    | with_reducible first
      | assumption | apply ite_storesOk | fail_if_no_progress refine mk_storesOk ?_ rfl rfl rfl rfl rfl
    | fail_if_no_progress dsimp only | split

theorem respOne_storesOk {s : State} {i : Nat} {e : FrameEntry} (hok : s.storesOk = true) :
    (respOne s i e).storesOk = true := by
  unfold respOne
  try dsimp only
  repeat' first
    | with_reducible first
      | assumption | apply ite_storesOk | apply romFetch_storesOk | refine romFetch_storesOk' (by assumption) ?_
      | fail_if_no_progress refine mk_storesOk ?_ rfl rfl rfl rfl rfl
    | fail_if_no_progress dsimp only | split

theorem respRefresh_storesOk {s : State} (hok : s.storesOk = true) : (respRefresh s).storesOk = true := by
  unfold respRefresh
  try dsimp only
  repeat' first
    | with_reducible first
      | assumption | apply ite_storesOk | apply respOne_storesOk | refine foldl_storesOk ?_ (fun s x h => ?_)
      | fail_if_no_progress refine mk_storesOk ?_ rfl rfl rfl rfl rfl
    | fail_if_no_progress dsimp only | split

theorem lightTick_storesOk {s : State} (hok : s.storesOk = true) : (lightTick s).storesOk = true := by
  unfold lightTick
  try dsimp only
  repeat' first
    | with_reducible first
      | assumption | apply ite_storesOk | apply holdCarry_storesOk | apply romLight_storesOk
      | apply lightLatch_storesOk | apply quietCheck_storesOk | apply respRefresh_storesOk
      | apply feedTicks_storesOk | fail_if_no_progress refine mk_storesOk ?_ rfl rfl rfl rfl rfl
    | fail_if_no_progress dsimp only | split

theorem tickEdge_storesOk {s : State} (hok : s.storesOk = true) :
    (tickEdge s).storesOk = true := by
  unfold tickEdge
  try dsimp only
  repeat' first
    | with_reducible first
      | assumption | apply ite_storesOk | apply quiesceLeave_storesOk | apply lightTick_storesOk
    | fail_if_no_progress dsimp only | split

theorem issue_storesOk {s : State} {mk : Bool → Ctx → Issue} (hk : ∀ lay c, KeepsTo KeepsEffect (mk lay c).plan)
    (h : s.storesOk = true) : (issue s mk).storesOk = true := by
  unfold issue
  have h := tickEdge_storesOk h
  dsimp only
  generalize tickEdge s = s at h ⊢
  split
  · exact h
  · rename_i lay _
    have hacc : KeepsTo KeepsEffect (do
        fetchCheck lay (if ((mk lay (ctxOf s lay)).len == 2 && (ctxOf s lay).pc == 0x1FFF) = true then 1
          else (mk lay (ctxOf s lay)).len)
        if ((mk lay (ctxOf s lay)).len == 2 && (ctxOf s lay).pc == 0x1FFF) = true then
          stopWith .illegalOp (mk lay (ctxOf s lay)).word.toNat
        (mk lay (ctxOf s lay)).plan) := by
      refine keeps_bind fetchCheck_keeps (fun _ => ?_)
      split
      · exact keeps_bind keeps_stopWith (fun _ => hk _ _)
      · exact hk _ _
    have hw := hacc { st := s, stall := 0 } h
    split <;> rename_i e <;> rw [e] at hw
    · refine ite_storesOk (outOfSlots_storesOk (passSlots_storesOk hw.1)) ?_
      exact finish_storesOk (hw.2 _ rfl _ (passSlots_storesOk hw.1))
    · exact ite_storesOk (outOfSlots_storesOk (passSlots_storesOk hw.1)) (annul_storesOk (passSlots_storesOk hw.1))
    · exact outOfSlots_storesOk (passSlots_storesOk hw.1)

theorem execSta_nextOk {f : Form} {s : State} (hok : s.storesOk = true) : NextOk (execSta f s) := by
  unfold execSta
  try dsimp only
  repeat' first
    | with_reducible first
      | assumption | apply ite_storesOk | refine nextOk_next ?_ | apply nextOk_ite | apply issue_storesOk
      | apply staPlan_keeps
    | fail_if_no_progress dsimp only | split | (show ∀ _ _, KeepsTo _ _; intro _ _)

theorem execLda_nextOk {f : Form} {s : State} (hok : s.storesOk = true) : NextOk (execLda f s) := by
  unfold execLda
  try dsimp only
  repeat' first
    | with_reducible first
      | assumption | apply ite_storesOk | refine nextOk_next ?_ | apply nextOk_ite | apply issue_storesOk
      | apply ldaPlan_keeps
    | fail_if_no_progress dsimp only | split | (show ∀ _ _, KeepsTo _ _; intro _ _)

theorem execAlu_storesOk {op : Alu} {opc : Nat} {f : Form} {s : State} (h : s.storesOk = true) :
    (execAlu op opc f s).storesOk = true := issue_storesOk (fun _ _ => aluPlan_keeps) h

theorem execShl_nextOk {f : Form} {s : State} (hok : s.storesOk = true) : NextOk (execShl f s) := by
  unfold execShl
  try dsimp only
  repeat' first
    | with_reducible first
      | assumption | apply ite_storesOk | refine nextOk_next ?_ | apply nextOk_ite | apply execAlu_storesOk
    | fail_if_no_progress dsimp only | split

theorem execTlu_nextOk {f : Form} {s : State} (hok : s.storesOk = true) : NextOk (execTlu f s) := by
  unfold execTlu
  try dsimp only
  repeat' first
    | with_reducible first
      | assumption | apply ite_storesOk | refine nextOk_next ?_ | apply nextOk_ite | apply issue_storesOk
      | apply tluPlan_keeps
    | fail_if_no_progress dsimp only | split | (show ∀ _ _, KeepsTo _ _; intro _ _)

theorem execPlain_storesOk {opc : Nat} {f : Form} {ok : Bool → Ctx → Bool} {eff : Bool → Effect} {s : State}
    (he : ∀ lay, KeepsEffect (eff lay)) (h : s.storesOk = true) : (execPlain opc f ok eff s).storesOk = true :=
  issue_storesOk (fun lay _ => keeps_bind require_keeps (fun _ => keeps_pure (he lay))) h

theorem execBxclr_nextOk {f : Form} {s : State} (hok : s.storesOk = true) : NextOk (execBxclr f s) := by
  unfold execBxclr
  try dsimp only
  repeat' first
    | with_reducible first
      | assumption | apply ite_storesOk | refine nextOk_next ?_ | apply nextOk_ite | apply execPlain_storesOk
      | apply passSlots_storesOk | apply setCtx_storesOk
      | fail_if_no_progress refine mk_storesOk ?_ rfl rfl rfl rfl rfl | refine keepsEffect_intro (fun s hok => ?_)
    | fail_if_no_progress dsimp only | split | (show ∀ _, KeepsEffect _; intro _)

theorem execClamp_nextOk {f : Form} {s : State} (hok : s.storesOk = true) : NextOk (execClamp f s) := by
  unfold execClamp
  try dsimp only
  repeat' first
    | with_reducible first
      | assumption | apply ite_storesOk | refine nextOk_next ?_ | apply nextOk_ite | apply issue_storesOk
      | apply readModifyPlan_keeps
    | fail_if_no_progress dsimp only | split | (show ∀ _ _, KeepsTo _ _; intro _ _)

theorem execLerp_nextOk {f : Form} {s : State} (hok : s.storesOk = true) : NextOk (execLerp f s) := by
  unfold execLerp
  try dsimp only
  repeat' first
    | with_reducible first
      | assumption | apply ite_storesOk | refine nextOk_next ?_ | apply nextOk_ite | apply issue_storesOk
      | apply readModifyPlan_keeps
    | fail_if_no_progress dsimp only | split | (show ∀ _ _, KeepsTo _ _; intro _ _)

theorem execAbs_nextOk {f : Form} {s : State} (hok : s.storesOk = true) : NextOk (execAbs f s) := by
  unfold execAbs
  try dsimp only
  repeat' first
    | with_reducible first
      | assumption | apply ite_storesOk | refine nextOk_next ?_ | apply nextOk_ite | apply execAlu_storesOk
    | fail_if_no_progress dsimp only | split

theorem execNot_nextOk {f : Form} {s : State} (hok : s.storesOk = true) : NextOk (execNot f s) := by
  unfold execNot
  try dsimp only
  repeat' first
    | with_reducible first
      | assumption | apply ite_storesOk | refine nextOk_next ?_ | apply nextOk_ite | apply execAlu_storesOk
    | fail_if_no_progress dsimp only | split

theorem execScale_nextOk {f : Form} {s : State} (hok : s.storesOk = true) : NextOk (execScale f s) := by
  unfold execScale
  try dsimp only
  repeat' first
    | with_reducible first
      | assumption | apply ite_storesOk | refine nextOk_next ?_ | apply nextOk_ite | apply issue_storesOk
      | apply scalePlan_keeps
    | fail_if_no_progress dsimp only | split | (show ∀ _ _, KeepsTo _ _; intro _ _)

theorem execMin_nextOk {f : Form} {s : State} (hok : s.storesOk = true) : NextOk (execMin f s) := by
  unfold execMin
  try dsimp only
  repeat' first
    | with_reducible first
      | assumption | apply ite_storesOk | refine nextOk_next ?_ | apply nextOk_ite | apply execAlu_storesOk
    | fail_if_no_progress dsimp only | split

theorem execMov_nextOk {f : Form} {s : State} (hok : s.storesOk = true) : NextOk (execMov f s) := by
  unfold execMov
  try dsimp only
  repeat' first
    | with_reducible first
      | assumption | apply ite_storesOk | refine nextOk_next ?_ | apply nextOk_ite | apply execAlu_storesOk
    | fail_if_no_progress dsimp only | split

theorem execSub_nextOk {f : Form} {s : State} (hok : s.storesOk = true) : NextOk (execSub f s) := by
  unfold execSub
  try dsimp only
  repeat' first
    | with_reducible first
      | assumption | apply ite_storesOk | refine nextOk_next ?_ | apply nextOk_ite | apply execAlu_storesOk
    | fail_if_no_progress dsimp only | split

theorem execOr_nextOk {f : Form} {s : State} (hok : s.storesOk = true) : NextOk (execOr f s) := by
  unfold execOr
  try dsimp only
  repeat' first
    | with_reducible first
      | assumption | apply ite_storesOk | refine nextOk_next ?_ | apply nextOk_ite | apply execAlu_storesOk
    | fail_if_no_progress dsimp only | split

theorem execMax_nextOk {f : Form} {s : State} (hok : s.storesOk = true) : NextOk (execMax f s) := by
  unfold execMax
  try dsimp only
  repeat' first
    | with_reducible first
      | assumption | apply ite_storesOk | refine nextOk_next ?_ | apply nextOk_ite | apply execAlu_storesOk
    | fail_if_no_progress dsimp only | split

theorem execMovi_nextOk {f : Form} {s : State} (hok : s.storesOk = true) : NextOk (execMovi f s) := by
  unfold execMovi
  try dsimp only
  repeat' first
    | with_reducible first
      | assumption | apply ite_storesOk | refine nextOk_next ?_ | apply nextOk_ite | apply issue_storesOk
      | apply moviPlan_keeps
    | fail_if_no_progress dsimp only | split | (show ∀ _ _, KeepsTo _ _; intro _ _)

theorem execShr_nextOk {f : Form} {s : State} (hok : s.storesOk = true) : NextOk (execShr f s) := by
  unfold execShr
  try dsimp only
  repeat' first
    | with_reducible first
      | assumption | apply ite_storesOk | refine nextOk_next ?_ | apply nextOk_ite | apply execAlu_storesOk
    | fail_if_no_progress dsimp only | split

theorem execNeg_nextOk {f : Form} {s : State} (hok : s.storesOk = true) : NextOk (execNeg f s) := by
  unfold execNeg
  try dsimp only
  repeat' first
    | with_reducible first
      | assumption | apply ite_storesOk | refine nextOk_next ?_ | apply nextOk_ite | apply execAlu_storesOk
    | fail_if_no_progress dsimp only | split

theorem execXor_nextOk {f : Form} {s : State} (hok : s.storesOk = true) : NextOk (execXor f s) := by
  unfold execXor
  try dsimp only
  repeat' first
    | with_reducible first
      | assumption | apply ite_storesOk | refine nextOk_next ?_ | apply nextOk_ite | apply execAlu_storesOk
    | fail_if_no_progress dsimp only | split

theorem execNop_nextOk {f : Form} {s : State} (hok : s.storesOk = true) : NextOk (execNop f s) := by
  unfold execNop
  try dsimp only
  repeat' first
    | with_reducible first
      | assumption | apply ite_storesOk | refine nextOk_next ?_ | apply nextOk_ite | apply execPlain_storesOk
      | apply passSlots_storesOk | refine keepsEffect_intro (fun s hok => ?_)
    | fail_if_no_progress dsimp only | split | (show ∀ _, KeepsEffect _; intro _)

theorem execClra_nextOk {f : Form} {s : State} (hok : s.storesOk = true) : NextOk (execClra f s) := by
  unfold execClra
  try dsimp only
  repeat' first
    | with_reducible first
      | assumption | apply ite_storesOk | refine nextOk_next ?_ | apply nextOk_ite | apply execPlain_storesOk
      | apply passSlots_storesOk | apply setCtx_storesOk
      | fail_if_no_progress refine mk_storesOk ?_ rfl rfl rfl rfl rfl | refine keepsEffect_intro (fun s hok => ?_)
    | fail_if_no_progress dsimp only | split | (show ∀ _, KeepsEffect _; intro _)

theorem execShrl_nextOk {f : Form} {s : State} (hok : s.storesOk = true) : NextOk (execShrl f s) := by
  unfold execShrl
  try dsimp only
  repeat' first
    | with_reducible first
      | assumption | apply ite_storesOk | refine nextOk_next ?_ | apply nextOk_ite | apply execAlu_storesOk
    | fail_if_no_progress dsimp only | split

theorem execTst_nextOk {f : Form} {s : State} (hok : s.storesOk = true) : NextOk (execTst f s) := by
  unfold execTst
  try dsimp only
  repeat' first
    | with_reducible first
      | assumption | apply ite_storesOk | refine nextOk_next ?_ | apply nextOk_ite | apply execAlu_storesOk
    | fail_if_no_progress dsimp only | split

theorem execAnd_nextOk {f : Form} {s : State} (hok : s.storesOk = true) : NextOk (execAnd f s) := by
  unfold execAnd
  try dsimp only
  repeat' first
    | with_reducible first
      | assumption | apply ite_storesOk | refine nextOk_next ?_ | apply nextOk_ite | apply execAlu_storesOk
    | fail_if_no_progress dsimp only | split

theorem execCmp_nextOk {f : Form} {s : State} (hok : s.storesOk = true) : NextOk (execCmp f s) := by
  unfold execCmp
  try dsimp only
  repeat' first
    | with_reducible first
      | assumption | apply ite_storesOk | refine nextOk_next ?_ | apply nextOk_ite | apply execAlu_storesOk
    | fail_if_no_progress dsimp only | split

theorem execAdd_nextOk {f : Form} {s : State} (hok : s.storesOk = true) : NextOk (execAdd f s) := by
  unfold execAdd
  try dsimp only
  repeat' first
    | with_reducible first
      | assumption | apply ite_storesOk | refine nextOk_next ?_ | apply nextOk_ite | apply execAlu_storesOk
    | fail_if_no_progress dsimp only | split

theorem execMapWalk_nextOk {va : BitVec 24} {s : State} {late : Bool} (h : s.storesOk = true) :
    NextOk (execMapWalk va s late) := by
  have hk : ∀ lay, Keeps (do let _ ← translate lay va.toNat : Run Unit) := fun _ =>
    keeps_bind translate_keeps (fun _ => keeps_pure trivial)
  unfold execMapWalk
  have h := tickEdge_storesOk h
  dsimp only
  split
  · exact nextOk_next (ite_storesOk h (runAccess_storesOk (hk _) h))
  · exact nextOk_next (pinTry_storesOk h)
  · exact nextOk_next (ite_storesOk h (runAccess_storesOk (hk _) h))
  · exact nextOk_next h

theorem execExternalPageRead_nextOk {va : BitVec 24} {late : Bool} {s : State} (h : s.storesOk = true) :
    NextOk (execExternalPageRead va late s) := by
  unfold execExternalPageRead
  have h := tickEdge_storesOk h
  dsimp only
  split
  · exact nextOk_next h
  · refine nextOk_ite (nextOk_next h) (nextOk_next (runAccess_storesOk ?_ h))
    refine keeps_bind translate_keeps (fun p => ?_)
    split
    · exact keeps_bind pageLoc_keeps (fun _ => keeps_pure trivial)
    · exact keeps_pure trivial

theorem execMul_storesOk {op : MulOp} {opc : Nat} {f : Form} {s : State} (h : s.storesOk = true) :
    (execMul op opc f s).storesOk = true := issue_storesOk (fun _ _ => mulPlan_keeps) h

theorem execMsu_nextOk {f : Form} {s : State} (hok : s.storesOk = true) : NextOk (execMsu f s) := by
  unfold execMsu
  try dsimp only
  repeat' first
    | with_reducible first
      | assumption | apply ite_storesOk | refine nextOk_next ?_ | apply nextOk_ite | apply execMul_storesOk
    | fail_if_no_progress dsimp only | split

theorem execMpy_nextOk {f : Form} {s : State} (hok : s.storesOk = true) : NextOk (execMpy f s) := by
  unfold execMpy
  try dsimp only
  repeat' first
    | with_reducible first
      | assumption | apply ite_storesOk | refine nextOk_next ?_ | apply nextOk_ite | apply execMul_storesOk
    | fail_if_no_progress dsimp only | split

theorem execMac_nextOk {f : Form} {s : State} (hok : s.storesOk = true) : NextOk (execMac f s) := by
  unfold execMac
  try dsimp only
  repeat' first
    | with_reducible first
      | assumption | apply ite_storesOk | refine nextOk_next ?_ | apply nextOk_ite | apply execMul_storesOk
    | fail_if_no_progress dsimp only | split

theorem execSplc_nextOk {f : Form} {s : State} (hok : s.storesOk = true) : NextOk (execSplc f s) := by
  unfold execSplc
  try dsimp only
  repeat' first
    | with_reducible first
      | assumption | apply ite_storesOk | refine nextOk_next ?_ | apply nextOk_ite | apply issue_storesOk
      | apply actPlan_keeps | apply splcWrite_storesOk
    | fail_if_no_progress dsimp only | split | (show ∀ _ _, KeepsTo _ _; intro _ _)

theorem execYield_nextOk {f : Form} {s : State} (hok : s.storesOk = true) : NextOk (execYield f s) := by
  unfold execYield
  try dsimp only
  repeat' first
    | with_reducible first
      | assumption | apply ite_storesOk | refine nextOk_next ?_ | apply nextOk_ite | apply execPlain_storesOk
      | apply passSlots_storesOk | apply wdogRestart_storesOk
      | fail_if_no_progress refine mk_storesOk ?_ rfl rfl rfl rfl rfl | refine keepsEffect_intro (fun s hok => ?_)
    | fail_if_no_progress dsimp only | split | (show ∀ _, KeepsEffect _; intro _)

theorem execEvt_nextOk {f : Form} {s : State} (h : s.storesOk = true) : NextOk (execEvt f s) := by
  unfold execEvt
  refine nextOk_next (issue_storesOk (fun lay c => ?_) h)
  dsimp only
  exact evtPlan_keeps

theorem execCall_nextOk {f : Form} {s : State} (hok : s.storesOk = true) : NextOk (execCall f s) := by
  unfold execCall
  try dsimp only
  repeat' first
    | with_reducible first
      | assumption | apply ite_storesOk | refine nextOk_next ?_ | apply nextOk_ite | apply issue_storesOk
      | apply callPlan_keeps
    | fail_if_no_progress dsimp only | split | (show ∀ _ _, KeepsTo _ _; intro _ _)

theorem execLoop_nextOk {f : Form} {s : State} (hok : s.storesOk = true) : NextOk (execLoop f s) := by
  unfold execLoop
  try dsimp only
  repeat' first
    | with_reducible first
      | assumption | apply ite_storesOk | refine nextOk_next ?_ | apply nextOk_ite | apply issue_storesOk
      | apply loopPlan_keeps
    | fail_if_no_progress dsimp only | split | (show ∀ _ _, KeepsTo _ _; intro _ _)

theorem execMode_nextOk {f : Form} {s : State} (hok : s.storesOk = true) : NextOk (execMode f s) := by
  unfold execMode
  try dsimp only
  repeat' first
    | with_reducible first
      | assumption | apply ite_storesOk | refine nextOk_next ?_ | apply nextOk_ite | apply execPlain_storesOk
      | apply passSlots_storesOk | refine keepsEffect_intro (fun s hok => ?_)
    | fail_if_no_progress dsimp only | split | (show ∀ _, KeepsEffect _; intro _)

theorem execBcc_nextOk {f : Form} {s : State} (hok : s.storesOk = true) : NextOk (execBcc f s) := by
  unfold execBcc
  try dsimp only
  repeat' first
    | with_reducible first
      | assumption | apply ite_storesOk | refine nextOk_next ?_ | apply nextOk_ite | apply execPlain_storesOk
      | apply passSlots_storesOk | refine keepsEffect_intro (fun s hok => ?_)
    | fail_if_no_progress dsimp only | split | (show ∀ _, KeepsEffect _; intro _)

theorem execEnd_nextOk {f : Form} {s : State} (hok : s.storesOk = true) : NextOk (execEnd f s) := by
  unfold execEnd
  try dsimp only
  repeat' first
    | with_reducible first
      | assumption | apply ite_storesOk | refine nextOk_next ?_ | apply nextOk_ite | apply execPlain_storesOk
      | apply layEnd_storesOk | refine layEnd_storesOk' (by assumption) ?_
      | refine keepsEffect_intro (fun s hok => ?_)
    | fail_if_no_progress dsimp only | split | (show ∀ _, KeepsEffect _; intro _)

theorem execRet_nextOk {f : Form} {s : State} (hok : s.storesOk = true) : NextOk (execRet f s) := by
  unfold execRet
  try dsimp only
  repeat' first
    | with_reducible first
      | assumption | apply ite_storesOk | refine nextOk_next ?_ | apply nextOk_ite | apply issue_storesOk
      | apply retPlan_keeps
    | fail_if_no_progress dsimp only | split | (show ∀ _ _, KeepsTo _ _; intro _ _)

theorem paramArm_storesOk {s : State} {e : SplnEntry} {frame : Word} (hok : s.storesOk = true) :
    (paramArm s e frame).storesOk = true := by
  unfold paramArm
  try dsimp only
  repeat' first
    | with_reducible first
      | assumption | apply ite_storesOk | apply setReg_storesOk
      | fail_if_no_progress refine mk_storesOk ?_ rfl rfl rfl rfl rfl
    | fail_if_no_progress dsimp only | split

theorem paramCell_storesOk {s : State} {e : SplnEntry} {v : Cell} (hok : s.storesOk = true) :
    (paramCell s e v).storesOk = true := by
  unfold paramCell
  try dsimp only
  repeat' first
    | with_reducible first
      | assumption | apply ite_storesOk | apply stageStore_storesOk | apply setB_storesOk
      | apply spliceClaim_storesOk
    | fail_if_no_progress dsimp only | split

theorem paramStage_storesOk {s : State} {e : SplnEntry} {v : Cell} {frame : Option Word} (hok : s.storesOk = true) :
    (paramStage s e v frame).1.storesOk = true := by
  unfold paramStage
  try dsimp only
  repeat' first
    | with_reducible first
      | assumption | apply ite_storesOk | apply spliceRefuse_storesOk | apply paramCell_storesOk
      | apply paramArm_storesOk | apply sysEvent_storesOk | apply setB_storesOk | apply logPush_storesOk
      | fail_if_no_progress refine mk_storesOk ?_ rfl rfl rfl rfl rfl
    | fail_if_no_progress dsimp only | split

theorem paramStage_storesOk' {s : State} {e : SplnEntry} {v : Cell} {frame : Option Word} {t0 : State}
    {y0 : Bool} (he : paramStage s e v frame = (t0, y0)) (hok : s.storesOk = true) :
    t0.storesOk = true := by
  have := paramStage_storesOk (s := s) (e := e) (v := v) (frame := frame) hok
  rwa [he] at this

theorem applyGains_storesOk {s : State} {img : List Byte} {v : Nat} (hok : s.storesOk = true) :
    (applyGains s img v).storesOk = true := by
  unfold applyGains
  try dsimp only
  repeat' first
    | with_reducible first
      | assumption | apply ite_storesOk | refine foldl_storesOk ?_ (fun s x h => ?_)
      | fail_if_no_progress refine mk_storesOk ?_ rfl rfl rfl rfl rfl
    | fail_if_no_progress dsimp only | split

theorem putMem_wf {m : Mem} {p : Put} (h : m.wf = true) : (putMem m p).wf = true := by
  rw [memWf_iff] at h
  cases p <;> simp only [putMem, eccClear_wf] <;> rw [memWf_iff] <;> simp_all [swf_sput]

theorem applyPuts_storesOk {s : State} {ps : List Put} (h : s.storesOk = true) : (applyPuts s ps).storesOk = true := by
  refine mem_storesOk h (fun hm => ?_) rfl rfl rfl rfl
  show (ps.foldl putMem s.mem).wf = true
  clear h
  generalize s.mem = m at hm
  induction ps generalizing m with
  | nil => exact hm
  | cons p ps ih => exact ih _ (putMem_wf hm)

theorem applyHead_storesOk {s : State} {img : List Byte} {v : Nat} (hok : s.storesOk = true) :
    (applyHead s img v).storesOk = true := by
  unfold applyHead
  try dsimp only
  repeat' first
    | with_reducible first
      | assumption | apply ite_storesOk | apply setReg_storesOk
      | fail_if_no_progress refine mk_storesOk ?_ rfl rfl rfl rfl rfl
    | fail_if_no_progress dsimp only | split

theorem applyRecord_storesOk {s : State} {r : Rec} (hok : s.storesOk = true) : (applyRecord s r).storesOk = true := by
  unfold applyRecord
  try dsimp only
  repeat' first
    | with_reducible first
      | assumption | apply ite_storesOk | apply regWrite_storesOk
    | fail_if_no_progress dsimp only | split

theorem applyRecords_storesOk {s : State} {img : List Byte} {v : Nat} {t : Nat} {skip : Nat} (hok : s.storesOk = true) :
    (applyRecords s img v t skip).storesOk = true := by
  unfold applyRecords
  try dsimp only
  repeat' first
    | with_reducible first
      | assumption | apply ite_storesOk | apply applyRecord_storesOk | refine foldl_storesOk ?_ (fun s x h => ?_)
      | fail_if_no_progress refine mk_storesOk ?_ rfl rfl rfl rfl rfl
    | fail_if_no_progress dsimp only | split

theorem applyHalp_storesOk {s : State} {img : List Byte} {v : Nat} (hok : s.storesOk = true) :
    (applyHalp s img v).storesOk = true := by
  unfold applyHalp
  try dsimp only
  repeat' first
    | with_reducible first
      | assumption | apply ite_storesOk | fail_if_no_progress refine mk_storesOk ?_ rfl rfl rfl rfl rfl
    | fail_if_no_progress dsimp only | split

theorem applyPin_storesOk {acc : State × Bool} {vpn : Nat} (h : acc.1.storesOk = true) :
    (applyPin acc vpn).1.storesOk = true := by
  refine pinRun_storesOk ?_
  exact mk_storesOk h rfl rfl rfl rfl rfl

theorem applyPins_storesOk {vs : List Nat} {acc : State × Bool} (h : acc.1.storesOk = true) :
    (vs.foldl applyPin acc).1.storesOk = true := by
  induction vs generalizing acc with
  | nil => exact h
  | cons v vs ih => exact ih (applyPin_storesOk h)

theorem baseTakes_storesOk {s : State} (hok : s.storesOk = true) :
    (baseTakes s).storesOk = true := by
  unfold baseTakes
  try dsimp only
  repeat' first
    | with_reducible first
      | assumption | apply ite_storesOk | apply setReg_storesOk | refine foldl_storesOk ?_ (fun s x h => ?_)
      | fail_if_no_progress refine mk_storesOk ?_ rfl rfl rfl rfl rfl
    | fail_if_no_progress dsimp only | split

theorem applyBase_storesOk {s : State} {img : List Byte} {v : Nat} (hok : s.storesOk = true) :
    (applyBase s img v).storesOk = true := by
  unfold applyBase
  try dsimp only
  repeat' first
    | with_reducible first
      | assumption | apply ite_storesOk | fail_if_no_progress refine mk_storesOk ?_ rfl rfl rfl rfl rfl
    | fail_if_no_progress dsimp only | split

theorem applyMaps_storesOk {s : State} {img : List Byte} {v : Nat} (h : s.storesOk = true) :
    (applyMaps s img v).1.storesOk = true := by
  unfold applyMaps
  dsimp only
  split
  · exact applyPins_storesOk (baseTakes_storesOk (applyBase_storesOk h))
  · exact applyBase_storesOk h

theorem applyMaps_storesOk' {s : State} {img : List Byte} {v : Nat} {t0 : State} {y1 : Bool}
    (he : applyMaps s img v = (t0, y1)) (h : s.storesOk = true) : t0.storesOk = true := by
  have := applyMaps_storesOk (img := img) (v := v) h
  rwa [he] at this

theorem applySpln_storesOk {s : State} {img : List Byte} {v : Nat} (hok : s.storesOk = true) :
    (applySpln s img v).storesOk = true := by
  unfold applySpln
  try dsimp only
  repeat' first
    | with_reducible first
      | assumption | apply ite_storesOk | fail_if_no_progress refine mk_storesOk ?_ rfl rfl rfl rfl rfl
    | fail_if_no_progress dsimp only | split

theorem applyImage_storesOk {s : State} {img : List Byte} (hok : s.storesOk = true) :
    (applyImage s img).1.storesOk = true := by
  unfold applyImage
  try dsimp only
  repeat' first
    | with_reducible first
      | assumption | apply ite_storesOk | apply applyGains_storesOk | apply applyHead_storesOk
      | apply applyRecords_storesOk | apply applyHalp_storesOk | apply applyMaps_storesOk
      | refine applyMaps_storesOk' (by assumption) ?_ | apply applySpln_storesOk
      | fail_if_no_progress refine mk_storesOk ?_ rfl rfl rfl rfl rfl
    | fail_if_no_progress dsimp only | split

theorem applyImage_storesOk' {s : State} {img : List Byte} {t0 : State}
    {y0 : Bool} (he : applyImage s img = (t0, y0)) (hok : s.storesOk = true) :
    t0.storesOk = true := by
  have := applyImage_storesOk (s := s) (img := img) hok
  rwa [he] at this

theorem readyForLay_storesOk {s : State} (hok : s.storesOk = true) : (readyForLay s).storesOk = true := by
  unfold readyForLay
  try dsimp only
  repeat' first
    | with_reducible first
      | assumption | apply ite_storesOk | fail_if_no_progress refine mk_storesOk ?_ rfl rfl rfl rfl rfl
    | fail_if_no_progress dsimp only | split

theorem setBoot_storesOk {s : State} {src : Nat} {variant : Nat} (hok : s.storesOk = true) :
    (setBoot s src variant).storesOk = true := by
  unfold setBoot
  try dsimp only
  repeat' first
    | with_reducible first
      | assumption | apply ite_storesOk | apply setF_storesOk
    | fail_if_no_progress dsimp only | split

theorem clearRam_wf {m : Mem} {p : Put} (h : m.wf = true) : (clearRam m p).wf = true := by
  rw [memWf_iff] at h
  cases p <;> simp only [clearRam] <;> rw [memWf_iff] <;> simp_all

theorem clearLoaded_storesOk {s : State} {img : List Byte} (h : s.storesOk = true) : (clearLoaded s img).storesOk = true := by
  unfold clearLoaded
  refine ite_storesOk h (mem_storesOk h (fun hm => ?_) rfl rfl rfl rfl)
  dsimp only
  generalize s.mem = m at hm
  generalize imagePuts (loadCtx s) img 0 img.length = ps
  clear h
  induction ps generalizing m with
  | nil => exact hm
  | cons p ps ih => exact ih _ (clearRam_wf hm)

theorem unapplyAll_storesOk {s0 s : State} {img : List Byte} (h0 : s0.storesOk = true) (h : s.storesOk = true) :
    (unapplyAll s0 s img).storesOk = true := by
  unfold unapplyAll
  dsimp only
  generalize strapRegs (roleRegs { s with regs := [] }) = base
  have h1 : ((writtenRegs img (runVariant s img)).foldl (fun s r => setReg s r (getReg base r)) s).storesOk = true :=
    foldl_storesOk h (fun _ _ h => setReg_storesOk h)
  simp only [State.storesOk, Bool.and_eq_true] at h0 h1 ⊢
  exact ⟨⟨⟨⟨h1.1.1.1.1, h1.1.1.1.2⟩, h0.1.1.2⟩, h0.1.2⟩, h1.2⟩

theorem unapply_storesOk {s0 s : State} {img : List Byte} (h0 : s0.storesOk = true) (h : s.storesOk = true) :
    (unapply s0 s img).storesOk = true := by
  unfold unapply
  dsimp only
  exact pinSettle_storesOk (ite_storesOk (unapplyAll_storesOk h0 h) (orderWritten_storesOk (unapplyAll_storesOk h0 h)))

theorem bootSlot_storesOk {s : State} {b : Bool} (hok : s.storesOk = true) : (bootSlot s b).1.storesOk = true := by
  unfold bootSlot
  try dsimp only
  repeat' first
    | with_reducible first
      | assumption | apply ite_storesOk | apply setLastFail_storesOk | apply applyPuts_storesOk
      | apply applyImage_storesOk | refine applyImage_storesOk' (by assumption) ?_ | apply readyForLay_storesOk
      | apply setBoot_storesOk | apply clearLoaded_storesOk | apply unapply_storesOk
      | fail_if_no_progress refine mk_storesOk ?_ rfl rfl rfl rfl rfl
    | fail_if_no_progress dsimp only | split

theorem bootSlot_storesOk' {s : State} {b : Bool} {t0 : State}
    {y0 : Bool} (he : bootSlot s b = (t0, y0)) (hok : s.storesOk = true) :
    t0.storesOk = true := by
  have := bootSlot_storesOk (s := s) (b := b) hok
  rwa [he] at this

theorem raiseWorkshop_storesOk {s : State} (hok : s.storesOk = true) : (raiseWorkshop s).storesOk = true := by
  unfold raiseWorkshop
  try dsimp only
  repeat' first
    | with_reducible first
      | assumption | apply ite_storesOk | apply changeMode_storesOk
      | fail_if_no_progress refine mk_storesOk ?_ rfl rfl rfl rfl rfl
    | fail_if_no_progress dsimp only | split

theorem bootRom_storesOk {s : State} (hok : s.storesOk = true) : (bootRom s).storesOk = true := by
  unfold bootRom
  try dsimp only
  repeat' first
    | with_reducible first
      | assumption | apply ite_storesOk | apply readyForLay_storesOk | apply setBoot_storesOk
      | fail_if_no_progress refine mk_storesOk ?_ rfl rfl rfl rfl rfl
    | fail_if_no_progress dsimp only | split

theorem loadRefuse_storesOk {s : State} {r : Reason} (hok : s.storesOk = true) : (loadRefuse s r).storesOk = true := by
  unfold loadRefuse
  try dsimp only
  repeat' first
    | with_reducible first
      | assumption | apply ite_storesOk | apply setB_storesOk | apply setLastFail_storesOk
      | apply clearLoaded_storesOk | apply whipReset_storesOk
      | fail_if_no_progress refine mk_storesOk ?_ rfl rfl rfl rfl rfl
    | fail_if_no_progress dsimp only | split

theorem loadAccept_storesOk {s : State} (hok : s.storesOk = true) : (loadAccept s).storesOk = true := by
  unfold loadAccept
  try dsimp only
  repeat' first
    | with_reducible first
      | assumption | apply ite_storesOk | apply applyImage_storesOk
      | refine applyImage_storesOk' (by assumption) ?_ | apply loadRefuse_storesOk | apply unapply_storesOk
      | apply readyForLay_storesOk | apply setBoot_storesOk | apply setB_storesOk | apply whipReset_storesOk
      | fail_if_no_progress refine mk_storesOk ?_ rfl rfl rfl rfl rfl
    | fail_if_no_progress dsimp only | split

theorem loadTake_storesOk {s : State} {data : List Byte} (hok : s.storesOk = true) :
    (loadTake s data).storesOk = true := by
  unfold loadTake
  try dsimp only
  repeat' first
    | with_reducible first
      | assumption | apply ite_storesOk | apply loadRefuse_storesOk | apply applyPuts_storesOk
      | apply loadAccept_storesOk | fail_if_no_progress refine mk_storesOk ?_ rfl rfl rfl rfl rfl
    | fail_if_no_progress dsimp only | split

theorem loadChunk_storesOk {s : State} {overRope : Bool} {offset : Nat} {data : List Byte} (hok : s.storesOk = true) :
    (loadChunk s overRope offset data).storesOk = true := by
  unfold loadChunk
  try dsimp only
  repeat' first
    | with_reducible first
      | assumption | apply ite_storesOk | apply clearLoaded_storesOk | apply setB_storesOk
      | apply loadTake_storesOk | fail_if_no_progress refine mk_storesOk ?_ rfl rfl rfl rfl rfl
    | fail_if_no_progress dsimp only | split

theorem discover_storesOk {s : State} {sfdp : Option Sfdp} (hok : s.storesOk = true) :
    (discover s sfdp).storesOk = true := by
  unfold discover
  try dsimp only
  repeat' first
    | with_reducible first
      | assumption | apply ite_storesOk | apply setF_storesOk | apply setReg_storesOk
      | fail_if_no_progress refine mk_storesOk ?_ rfl rfl rfl rfl rfl
    | fail_if_no_progress dsimp only | split

theorem clearRams_storesOk {s : State} (h : s.storesOk = true) : (clearRams s).storesOk = true :=
  mem_storesOk h initMem_wf rfl rfl rfl rfl

theorem tryBoot_storesOk {s : State} {bs : List BootSource} (h : s.storesOk = true) : (tryBoot s bs).storesOk = true := by
  induction bs generalizing s with
  | nil => exact failedStart_storesOk h
  | cons b bs ih =>
    cases b <;> unfold tryBoot
    · exact ite_storesOk (bootSlot_storesOk h) (ih (bootSlot_storesOk h))
    · exact ite_storesOk (bootSlot_storesOk h) (ih (bootSlot_storesOk h))
    · exact bootRom_storesOk h
    · exact mk_storesOk h rfl rfl rfl rfl rfl

theorem execStartAttempt_nextOk {bistOk : Bool} {sfdp : Option Sfdp} {s : State} (hok : s.storesOk = true) :
    NextOk (execStartAttempt bistOk sfdp s) := by
  unfold execStartAttempt
  try dsimp only
  repeat' first
    | with_reducible first
      | assumption | apply ite_storesOk | refine nextOk_next ?_ | apply nextOk_ite | apply limpEnter_storesOk
      | apply clearRams_storesOk | apply xpSettle_storesOk | apply raiseWorkshop_storesOk | apply countUp_storesOk
      | apply tryBoot_storesOk | apply discover_storesOk
      | fail_if_no_progress refine mk_storesOk ?_ rfl rfl rfl rfl rfl
    | fail_if_no_progress dsimp only | split

theorem readRegs_storesOk {s : State} {r n : Nat} (h : s.storesOk = true) : (readRegs s r n).1.storesOk = true := by
  induction n generalizing s r with
  | zero => exact h
  | succ n ih => exact ih (readEffect_storesOk h)

theorem readRegs_storesOk' {s t : State} {r n : Nat} {y : List Word} (he : readRegs s r n = (t, y))
    (h : s.storesOk = true) : t.storesOk = true := by
  have := readRegs_storesOk (r := r) (n := n) h
  rwa [he] at this

theorem ropeReadAct_storesOk {x0 : State} {x1 : Exchange} {x2 : List Word} (hok : x0.storesOk = true) :
    (ropeReadAct x0 x1 x2).1.storesOk = true := by
  unfold ropeReadAct
  try dsimp only
  repeat' first
    | with_reducible first
      | assumption | apply ite_storesOk | apply readRegs_storesOk | refine readRegs_storesOk' (by assumption) ?_
    | fail_if_no_progress dsimp only | split

theorem ropeReadAct_storesOk' {x0 : State} {x1 : Exchange} {x2 : List Word} {t0 : State}
    {y0 : Nat × List Word} (he : ropeReadAct x0 x1 x2 = (t0, y0)) (hok : x0.storesOk = true) :
    t0.storesOk = true := by
  have := ropeReadAct_storesOk (x0 := x0) (x1 := x1) (x2 := x2) hok
  rwa [he] at this

theorem imgChunkAct_storesOk {s : State} {x : Exchange} {ws : List Word} (h : s.storesOk = true) :
    (imgChunkAct s x ws).1.storesOk = true := loadChunk_storesOk h

theorem writeRecord_storesOk {s : State} {a : Word} {v : Word} (hok : s.storesOk = true) :
    (writeRecord s a v).1.storesOk = true := by
  unfold writeRecord
  try dsimp only
  repeat' first
    | with_reducible first
      | assumption | apply ite_storesOk | apply writeReg_storesOk | refine writeReg_storesOk' (by assumption) ?_
    | fail_if_no_progress dsimp only | split

theorem writeRecord_storesOk' {s : State} {a : Word} {v : Word} {t0 : State}
    {y0 : Nat} (he : writeRecord s a v = (t0, y0)) (hok : s.storesOk = true) :
    t0.storesOk = true := by
  have := writeRecord_storesOk (s := s) (a := a) (v := v) hok
  rwa [he] at this

theorem writeRecords_storesOk {s : State} {ws : List Word} {i res : Nat} {ref : Option Nat} (h : s.storesOk = true) :
    (writeRecords s ws i res ref).1.storesOk = true := by
  fun_induction writeRecords s ws i res ref with
  | case1 s a v rest i res ref t r e ih => exact ih (writeRecord_storesOk' e h)
  | case2 => exact h

theorem ropeSend_storesOk {s : State} {x : Exchange} (hok : s.storesOk = true) : (ropeSend s x).storesOk = true := by
  unfold ropeSend
  try dsimp only
  repeat' first
    | with_reducible first
      | assumption | apply ite_storesOk | apply ropStamp_storesOk
      | fail_if_no_progress refine mk_storesOk ?_ rfl rfl rfl rfl rfl
    | fail_if_no_progress dsimp only | split

theorem ropeFault_storesOk {s : State} {code : Nat} {seq : Byte} (hok : s.storesOk = true) :
    (ropeFault s code seq).storesOk = true := by
  unfold ropeFault
  try dsimp only
  repeat' first
    | with_reducible first
      | assumption | apply ite_storesOk | apply setF_storesOk
    | fail_if_no_progress dsimp only | split

theorem replyNow_storesOk {s : State} {r : Reply} (hok : s.storesOk = true) : (replyNow s r).storesOk = true := by
  unfold replyNow
  try dsimp only
  repeat' first
    | with_reducible first
      | assumption | apply ite_storesOk | fail_if_no_progress refine mk_storesOk ?_ rfl rfl rfl rfl rfl
    | fail_if_no_progress dsimp only | split

theorem lengthReject_storesOk {s : State} {x : Exchange} (h : s.storesOk = true) : (lengthReject s x).storesOk = true := by
  have hm : ∀ u : State, u.storesOk = true → ({ u with rope := { u.rope with lenErr := true } } : State).storesOk = true :=
    fun u hu => mk_storesOk hu rfl rfl rfl rfl rfl
  unfold lengthReject
  exact replyNow_storesOk (hm _ (setF_storesOk (ropeFault_storesOk (ropFlag_storesOk (countUp_storesOk (logHw_storesOk h))))))

theorem crcReject_storesOk {s : State} {h : Word} (hok : s.storesOk = true) : (crcReject s h).storesOk = true := by
  unfold crcReject
  try dsimp only
  repeat' first
    | with_reducible first
      | assumption | apply ite_storesOk | apply ropFlag_storesOk | apply logHw_storesOk | apply replyNow_storesOk
      | apply ropeFault_storesOk
    | fail_if_no_progress dsimp only | split

theorem replyLater_storesOk {s : State} {r : Reply} (hok : s.storesOk = true) : (replyLater s r).storesOk = true := by
  unfold replyLater
  try dsimp only
  repeat' first
    | with_reducible first
      | assumption | apply ite_storesOk | fail_if_no_progress refine mk_storesOk ?_ rfl rfl rfl rfl rfl
    | fail_if_no_progress dsimp only | split

theorem ropeJudge_storesOk {s : State} {x : Exchange} {w : Word} {lenOk : Nat → Bool} {allowed : State → Bool}
    {act : RopeAct} (ha : ∀ s x ws, s.storesOk = true → (act s x ws).1.storesOk = true) (h : s.storesOk = true) :
    (ropeJudge s x w lenOk allowed act).storesOk = true := by
  unfold ropeJudge
  dsimp only
  refine ite_storesOk (replyNow_storesOk h) (ite_storesOk (crcReject_storesOk h) (ite_storesOk (replyNow_storesOk h) ?_))
  split
  · exact replyNow_storesOk h
  · refine ite_storesOk (replyNow_storesOk h) (replyLater_storesOk (ha _ _ _ ?_))
    exact mk_storesOk h rfl rfl rfl rfl rfl

theorem ropeExchange_storesOk {isOp lenOk : Nat → Bool} {allowed : State → Bool} {act : RopeAct} {x : Exchange} {s : State}
    (ha : ∀ s x ws, s.storesOk = true → (act s x ws).1.storesOk = true) (h : s.storesOk = true) :
    (ropeExchange isOp lenOk allowed act x s).storesOk = true := by
  unfold ropeExchange
  dsimp only
  refine ite_storesOk h (ite_storesOk h (ite_storesOk (ropeSend_storesOk h)
    (ite_storesOk (lengthReject_storesOk (ropeSend_storesOk h)) ?_)))
  split
  · exact ite_storesOk (ropeJudge_storesOk ha (mk_storesOk (ropeSend_storesOk h) rfl rfl rfl rfl rfl)) h
  · exact h

theorem execRopeRead_nextOk {x : Exchange} {s : State} (hok : s.storesOk = true) : NextOk (execRopeRead x s) := by
  unfold execRopeRead
  try dsimp only
  repeat' first
    | with_reducible first
      | assumption | apply ite_storesOk | refine nextOk_next ?_ | apply nextOk_ite | apply ropeExchange_storesOk
      | apply ropeReadAct_storesOk | refine ropeReadAct_storesOk' (by assumption) ?_
    | fail_if_no_progress dsimp only | split | (show ∀ (_ : State) (_ : Exchange), _; intro s x ws hs)

theorem execImgState_nextOk {x : Exchange} {s : State} (hok : s.storesOk = true) : NextOk (execImgState x s) := by
  unfold execImgState
  try dsimp only
  repeat' first
    | with_reducible first
      | assumption | apply ite_storesOk | refine nextOk_next ?_ | apply nextOk_ite | apply ropeExchange_storesOk
    | fail_if_no_progress dsimp only | split | (show ∀ (_ : State) (_ : Exchange), _; intro s x ws hs)

theorem setFrameAct_storesOk {x0 : State} {x1 : Exchange} {x2 : List Word} (hok : x0.storesOk = true) :
    (setFrameAct x0 x1 x2).1.storesOk = true := by
  unfold setFrameAct
  try dsimp only
  repeat' first
    | with_reducible first
      | assumption | apply ite_storesOk | apply writeReg_storesOk | refine writeReg_storesOk' (by assumption) ?_
    | fail_if_no_progress dsimp only | split

theorem setFrameAct_storesOk' {x0 : State} {x1 : Exchange} {x2 : List Word} {t0 : State}
    {y0 : Nat × List Word} (he : setFrameAct x0 x1 x2 = (t0, y0)) (hok : x0.storesOk = true) :
    t0.storesOk = true := by
  have := setFrameAct_storesOk (x0 := x0) (x1 := x1) (x2 := x2) hok
  rwa [he] at this

theorem leaveLimpAct_storesOk {s : State} {x : Exchange} {ws : List Word} (h : s.storesOk = true) :
    (leaveLimpAct s x ws).1.storesOk = true := by
  unfold leaveLimpAct; dsimp only; exact regWrite_storesOk h

theorem execLeaveLimp_nextOk {x : Exchange} {s : State} (hok : s.storesOk = true) : NextOk (execLeaveLimp x s) := by
  unfold execLeaveLimp
  try dsimp only
  repeat' first
    | with_reducible first
      | assumption | apply ite_storesOk | refine nextOk_next ?_ | apply nextOk_ite | apply ropeExchange_storesOk
      | apply leaveLimpAct_storesOk
    | fail_if_no_progress dsimp only | split | (show ∀ (_ : State) (_ : Exchange), _; intro s x ws hs)

theorem deckFold_wf {f : Nat × Word → Cell} {g : Nat × Word → Nat} {es : List (Nat × Word)} {m : Mem} (h : m.wf = true) :
    (es.foldl (fun m e => eccClear { m with deck := sput zero m.deck (g e) (f e) } .deck (g e)) m).wf = true := by
  induction es generalizing m with
  | nil => exact h
  | cons e es ih => exact ih (deckPut_wf h)

theorem cellsAct_storesOk {s : State} {x : Exchange} {ws : List Word} (h : s.storesOk = true) :
    (cellsAct s x ws).1.storesOk = true := by
  unfold cellsAct
  dsimp only
  split
  · exact h
  · exact mem_storesOk h (fun hm => deckFold_wf hm) rfl rfl rfl rfl

theorem execRopeWrite_nextOk {x : Exchange} {s : State} (hok : s.storesOk = true) : NextOk (execRopeWrite x s) := by
  unfold execRopeWrite
  try dsimp only
  repeat' first
    | with_reducible first
      | assumption | apply ite_storesOk | refine nextOk_next ?_ | apply nextOk_ite | apply ropeExchange_storesOk
      | apply writeRecords_storesOk
    | fail_if_no_progress dsimp only | split | (show ∀ (_ : State) (_ : Exchange), _; intro s x ws hs)

theorem execRopeReplyReady_nextOk {s : State} (hok : s.storesOk = true) : NextOk (execRopeReplyReady s) := by
  unfold execRopeReplyReady
  try dsimp only
  repeat' first
    | with_reducible first
      | assumption | apply ite_storesOk | refine nextOk_next ?_ | apply nextOk_ite
      | fail_if_no_progress refine mk_storesOk ?_ rfl rfl rfl rfl rfl
    | fail_if_no_progress dsimp only | split

theorem execCells_nextOk {x : Exchange} {s : State} (hok : s.storesOk = true) : NextOk (execCells x s) := by
  unfold execCells
  try dsimp only
  repeat' first
    | with_reducible first
      | assumption | apply ite_storesOk | refine nextOk_next ?_ | apply nextOk_ite | apply ropeExchange_storesOk
      | apply cellsAct_storesOk
    | fail_if_no_progress dsimp only | split | (show ∀ (_ : State) (_ : Exchange), _; intro s x ws hs)

theorem execTime_nextOk {x : Exchange} {s : State} (hok : s.storesOk = true) : NextOk (execTime x s) := by
  unfold execTime
  try dsimp only
  repeat' first
    | with_reducible first
      | assumption | apply ite_storesOk | refine nextOk_next ?_ | apply nextOk_ite | apply ropeExchange_storesOk
    | fail_if_no_progress dsimp only | split | (show ∀ (_ : State) (_ : Exchange), _; intro s x ws hs)

theorem execRopeIdent_nextOk {x : Exchange} {s : State} (hok : s.storesOk = true) : NextOk (execRopeIdent x s) := by
  unfold execRopeIdent
  try dsimp only
  repeat' first
    | with_reducible first
      | assumption | apply ite_storesOk | refine nextOk_next ?_ | apply nextOk_ite | apply ropeExchange_storesOk
    | fail_if_no_progress dsimp only | split | (show ∀ (_ : State) (_ : Exchange), _; intro s x ws hs)

theorem execImgChunk_nextOk {x : Exchange} {s : State} (hok : s.storesOk = true) : NextOk (execImgChunk x s) := by
  unfold execImgChunk
  try dsimp only
  repeat' first
    | with_reducible first
      | assumption | apply ite_storesOk | refine nextOk_next ?_ | apply nextOk_ite | apply ropeExchange_storesOk
      | apply imgChunkAct_storesOk
    | fail_if_no_progress dsimp only | split | (show ∀ (_ : State) (_ : Exchange), _; intro s x ws hs)

theorem execRopeNop_nextOk {x : Exchange} {s : State} (hok : s.storesOk = true) : NextOk (execRopeNop x s) := by
  unfold execRopeNop
  try dsimp only
  repeat' first
    | with_reducible first
      | assumption | apply ite_storesOk | refine nextOk_next ?_ | apply nextOk_ite | apply ropeExchange_storesOk
      | fail_if_no_progress refine mk_storesOk ?_ rfl rfl rfl rfl rfl
    | fail_if_no_progress dsimp only | split | (show ∀ (_ : State) (_ : Exchange), _; intro s x ws hs)

theorem execRopeStatus_nextOk {x : Exchange} {s : State} (hok : s.storesOk = true) : NextOk (execRopeStatus x s) := by
  unfold execRopeStatus
  try dsimp only
  repeat' first
    | with_reducible first
      | assumption | apply ite_storesOk | refine nextOk_next ?_ | apply nextOk_ite | apply ropeExchange_storesOk
    | fail_if_no_progress dsimp only | split | (show ∀ (_ : State) (_ : Exchange), _; intro s x ws hs)

theorem execSetFrame_nextOk {x : Exchange} {s : State} (hok : s.storesOk = true) : NextOk (execSetFrame x s) := by
  unfold execSetFrame
  try dsimp only
  repeat' first
    | with_reducible first
      | assumption | apply ite_storesOk | refine nextOk_next ?_ | apply nextOk_ite | apply ropeExchange_storesOk
      | apply setFrameAct_storesOk | refine setFrameAct_storesOk' (by assumption) ?_
    | fail_if_no_progress dsimp only | split | (show ∀ (_ : State) (_ : Exchange), _; intro s x ws hs)

theorem twbSays_storesOk {s : State} {acks : List Bool} {sent : List Byte} (hok : s.storesOk = true) :
    (twbSays s acks sent).storesOk = true := by
  unfold twbSays
  try dsimp only
  repeat' first
    | with_reducible first
      | assumption | apply ite_storesOk | fail_if_no_progress refine mk_storesOk ?_ rfl rfl rfl rfl rfl
    | fail_if_no_progress dsimp only | split

theorem twbRead_storesOk {s : State} {code : Nat} {allowed : State → Bool} {pec : Bool} {data : State → List Byte}
    {n : Nat} (hok : s.storesOk = true) :
    (twbRead s code allowed pec data n).storesOk = true := by
  unfold twbRead
  try dsimp only
  repeat' first
    | with_reducible first
      | assumption | apply ite_storesOk | apply twbSays_storesOk
    | fail_if_no_progress dsimp only | split

theorem execTwbCmdReason_nextOk {pec : Bool} {n : BitVec 6} {s : State} (hok : s.storesOk = true) :
    NextOk (execTwbCmdReason pec n s) := by
  unfold execTwbCmdReason
  try dsimp only
  repeat' first
    | with_reducible first
      | assumption | apply ite_storesOk | refine nextOk_next ?_ | apply nextOk_ite | apply twbRead_storesOk
    | fail_if_no_progress dsimp only | split

theorem setPtr_storesOk {s : State} {p : Byte} (hok : s.storesOk = true) : (setPtr s p).storesOk = true := by
  unfold setPtr
  try dsimp only
  repeat' first
    | with_reducible first
      | assumption | apply ite_storesOk | fail_if_no_progress refine mk_storesOk ?_ rfl rfl rfl rfl rfl
    | fail_if_no_progress dsimp only | split

theorem ptrByte_storesOk {w : PtrWrite} {b : Byte} (h : w.st.storesOk = true) : (ptrByte w b).st.storesOk = true := by
  unfold ptrByte
  dsimp only
  split
  · exact h
  · split
    · exact mk_storesOk (setPtr_storesOk h) rfl rfl rfl rfl rfl
    · split
      · exact setPtr_storesOk h
      · split
        · exact setPtr_storesOk h
        · split
          · exact setPtr_storesOk (writeReg_storesOk (setPtr_storesOk h))
          · exact writeReg_storesOk (setPtr_storesOk h)

theorem ptrBytes_storesOk {bs : List Byte} {w : PtrWrite} (h : w.st.storesOk = true) :
    (bs.foldl ptrByte w).st.storesOk = true := by
  induction bs generalizing w with
  | nil => exact h
  | cons b bs ih => exact ih (ptrByte_storesOk h)

theorem execBulkChunk_nextOk {data : List Byte} {s : State} {late : Option Nat} (hok : s.storesOk = true) : NextOk (execBulkChunk data s late) := by
  unfold execBulkChunk
  try dsimp only
  repeat' first
    | with_reducible first
      | assumption | apply ite_storesOk | refine nextOk_next ?_ | apply nextOk_ite | apply twbSays_storesOk
      | apply loadChunk_storesOk | fail_if_no_progress refine mk_storesOk ?_ rfl rfl rfl rfl rfl
    | fail_if_no_progress dsimp only | split

theorem execBulkStateRead_nextOk {n : BitVec 6} {s : State} (hok : s.storesOk = true) :
    NextOk (execBulkStateRead n s) := by
  unfold execBulkStateRead
  try dsimp only
  repeat' first
    | with_reducible first
      | assumption | apply ite_storesOk | refine nextOk_next ?_ | apply nextOk_ite | apply twbSays_storesOk
    | fail_if_no_progress dsimp only | split

theorem execTwbCmdIdent_nextOk {pec : Bool} {n : BitVec 6} {s : State} (hok : s.storesOk = true) :
    NextOk (execTwbCmdIdent pec n s) := by
  unfold execTwbCmdIdent
  try dsimp only
  repeat' first
    | with_reducible first
      | assumption | apply ite_storesOk | refine nextOk_next ?_ | apply nextOk_ite | apply twbRead_storesOk
    | fail_if_no_progress dsimp only | split

theorem execTwbWakeAddress_nextOk {plane : BitVec 2} {s : State} (hok : s.storesOk = true) :
    NextOk (execTwbWakeAddress plane s) := by
  unfold execTwbWakeAddress
  try dsimp only
  repeat' first
    | with_reducible first
      | assumption | apply ite_storesOk | refine nextOk_next ?_ | apply nextOk_ite | apply wakeSources_storesOk
      | apply twbSays_storesOk | apply twbFlag_storesOk
    | fail_if_no_progress dsimp only | split

theorem execTwbSclLow_nextOk {s : State} (hok : s.storesOk = true) : NextOk (execTwbSclLow s) := by
  unfold execTwbSclLow
  try dsimp only
  repeat' first
    | with_reducible first
      | assumption | apply ite_storesOk | refine nextOk_next ?_ | apply nextOk_ite | apply twbFlag_storesOk
      | apply logHw_storesOk
    | fail_if_no_progress dsimp only | split

theorem ptrRead_storesOk {s : State} {latch : Option (Nat × Word)} {n : Nat} (h : s.storesOk = true) :
    (ptrRead s latch n).1.storesOk = true := by
  induction n generalizing s latch with
  | zero => exact h
  | succ n ih => exact ih (setPtr_storesOk (ite_storesOk (readEffect_storesOk h) h))

theorem ptrRead_storesOk' {s t : State} {latch : Option (Nat × Word)} {n : Nat} {y : List Byte}
    (he : ptrRead s latch n = (t, y)) (h : s.storesOk = true) : t.storesOk = true := by
  have := ptrRead_storesOk (latch := latch) (n := n) h
  rwa [he] at this

theorem execPointerPlaneRead_nextOk {n : BitVec 10} {s : State} (hok : s.storesOk = true) :
    NextOk (execPointerPlaneRead n s) := by
  unfold execPointerPlaneRead
  try dsimp only
  repeat' first
    | with_reducible first
      | assumption | apply ite_storesOk | refine nextOk_next ?_ | apply nextOk_ite | apply twbSays_storesOk
      | apply ptrRead_storesOk | refine ptrRead_storesOk' (by assumption) ?_
    | fail_if_no_progress dsimp only | split

theorem twbiDrop_storesOk {s : State} {n : Nat} (hok : s.storesOk = true) : (twbiDrop s n).storesOk = true := by
  unfold twbiDrop
  try dsimp only
  repeat' first
    | with_reducible first
      | assumption | apply ite_storesOk | fail_if_no_progress refine mk_storesOk ?_ rfl rfl rfl rfl rfl
    | fail_if_no_progress dsimp only | split

theorem execTwbiDelay_nextOk {s : State} (hok : s.storesOk = true) : NextOk (execTwbiDelay s) := by
  unfold execTwbiDelay
  try dsimp only
  repeat' first
    | with_reducible first
      | assumption | apply ite_storesOk | refine nextOk_next ?_ | apply nextOk_ite | apply twbiDrop_storesOk
    | fail_if_no_progress dsimp only | split

theorem execTwbiWrite_nextOk {s : State} (hok : s.storesOk = true) : NextOk (execTwbiWrite s) := by
  unfold execTwbiWrite
  try dsimp only
  repeat' first
    | with_reducible first
      | assumption | apply ite_storesOk | refine nextOk_next ?_ | apply nextOk_ite | apply setCbufByte_storesOk
      | apply twbiDrop_storesOk | refine foldl_storesOk ?_ (fun s x h => ?_)
      | fail_if_no_progress refine mk_storesOk ?_ rfl rfl rfl rfl rfl
    | fail_if_no_progress dsimp only | split

theorem execTwbSdaLow_nextOk {s : State} (hok : s.storesOk = true) : NextOk (execTwbSdaLow s) := by
  unfold execTwbSdaLow
  try dsimp only
  repeat' first
    | with_reducible first
      | assumption | apply ite_storesOk | refine nextOk_next ?_ | apply nextOk_ite | apply twbFlag_storesOk
      | apply logHw_storesOk
    | fail_if_no_progress dsimp only | split

theorem execTwbCmdMode_nextOk {t : TwbWrite} {s : State} (hok : s.storesOk = true) : NextOk (execTwbCmdMode t s) := by
  unfold execTwbCmdMode
  try dsimp only
  repeat' first
    | with_reducible first
      | assumption | apply ite_storesOk | refine nextOk_next ?_ | apply nextOk_ite | apply twbSays_storesOk
      | apply regWrite_storesOk | apply twbFlag_storesOk
      | fail_if_no_progress refine mk_storesOk ?_ rfl rfl rfl rfl rfl
    | fail_if_no_progress dsimp only | split

theorem execTwbCmdReply_nextOk {pec : Bool} {n : BitVec 6} {s : State} (hok : s.storesOk = true) :
    NextOk (execTwbCmdReply pec n s) := by
  unfold execTwbCmdReply
  try dsimp only
  repeat' first
    | with_reducible first
      | assumption | apply ite_storesOk | refine nextOk_next ?_ | apply nextOk_ite | apply twbRead_storesOk
    | fail_if_no_progress dsimp only | split

theorem slackCommand_storesOk {s : State} {code : Nat} {need : Nat} {t : TwbWrite} (hok : s.storesOk = true) :
    (slackCommand s code need t).storesOk = true := by
  unfold slackCommand
  try dsimp only
  repeat' first
    | with_reducible first
      | assumption | apply ite_storesOk | apply twbSays_storesOk | apply twbFlag_storesOk | apply countUp_storesOk
      | fail_if_no_progress refine mk_storesOk ?_ rfl rfl rfl rfl rfl
    | fail_if_no_progress dsimp only | split

theorem execParamSet_nextOk {t : TwbWrite} {s : State} (hok : s.storesOk = true) : NextOk (execParamSet t s) := by
  unfold execParamSet
  try dsimp only
  repeat' first
    | with_reducible first
      | assumption | apply ite_storesOk | refine nextOk_next ?_ | apply nextOk_ite | apply slackCommand_storesOk
    | fail_if_no_progress dsimp only | split

theorem execTwbiEnd_nextOk {s : State} (hok : s.storesOk = true) : NextOk (execTwbiEnd s) := by
  unfold execTwbiEnd
  try dsimp only
  repeat' first
    | with_reducible first
      | assumption | apply ite_storesOk | refine nextOk_next ?_ | apply nextOk_ite
      | fail_if_no_progress refine mk_storesOk ?_ rfl rfl rfl rfl rfl
    | fail_if_no_progress dsimp only | split

theorem paramSetRun_storesOk {s : State} {d : List Byte} (hok : s.storesOk = true) :
    (paramSetRun s d).1.storesOk = true := by
  unfold paramSetRun
  try dsimp only
  repeat' first
    | with_reducible first
      | assumption | apply ite_storesOk | apply paramStage_storesOk
      | refine paramStage_storesOk' (by assumption) ?_
      | fail_if_no_progress refine mk_storesOk ?_ rfl rfl rfl rfl rfl
    | fail_if_no_progress dsimp only | split

theorem paramSetRun_storesOk' {s : State} {d : List Byte} {t0 : State}
    {y0 : Byte × List Byte} (he : paramSetRun s d = (t0, y0)) (hok : s.storesOk = true) :
    t0.storesOk = true := by
  have := paramSetRun_storesOk (s := s) (d := d) hok
  rwa [he] at this

theorem paramGetRun_storesOk {s : State} {d : List Byte} (hok : s.storesOk = true) :
    (paramGetRun s d).1.storesOk = true := by
  unfold paramGetRun
  try dsimp only
  repeat' first
    | with_reducible first
      | assumption | apply ite_storesOk | apply romFetch_storesOk | refine romFetch_storesOk' (by assumption) ?_
      | fail_if_no_progress refine mk_storesOk ?_ rfl rfl rfl rfl rfl
    | fail_if_no_progress dsimp only | split

theorem paramGetRun_storesOk' {s : State} {d : List Byte} {t0 : State}
    {y0 : Byte × List Byte} (he : paramGetRun s d = (t0, y0)) (hok : s.storesOk = true) :
    t0.storesOk = true := by
  have := paramGetRun_storesOk (s := s) (d := d) hok
  rwa [he] at this

theorem execSlackCommandDone_nextOk {s : State} (hok : s.storesOk = true) : NextOk (execSlackCommandDone s) := by
  unfold execSlackCommandDone
  try dsimp only
  repeat' first
    | with_reducible first
      | assumption | apply ite_storesOk | refine nextOk_next ?_ | apply nextOk_ite | apply paramSetRun_storesOk
      | refine paramSetRun_storesOk' (by assumption) ?_ | apply paramGetRun_storesOk
      | refine paramGetRun_storesOk' (by assumption) ?_
      | fail_if_no_progress refine mk_storesOk ?_ rfl rfl rfl rfl rfl
    | fail_if_no_progress dsimp only | split

theorem execTwbCmdStatus_nextOk {pec : Bool} {plain : Bool} {n : BitVec 6} {s : State} (hok : s.storesOk = true) :
    NextOk (execTwbCmdStatus pec plain n s) := by
  unfold execTwbCmdStatus
  try dsimp only
  repeat' first
    | with_reducible first
      | assumption | apply ite_storesOk | refine nextOk_next ?_ | apply nextOk_ite | apply twbSays_storesOk
      | apply twbRead_storesOk
    | fail_if_no_progress dsimp only | split

theorem execParamGet_nextOk {t : TwbWrite} {s : State} (hok : s.storesOk = true) : NextOk (execParamGet t s) := by
  unfold execParamGet
  try dsimp only
  repeat' first
    | with_reducible first
      | assumption | apply ite_storesOk | refine nextOk_next ?_ | apply nextOk_ite | apply slackCommand_storesOk
    | fail_if_no_progress dsimp only | split

theorem execPointerPlaneWrite_nextOk {data : List Byte} {s : State} (h : s.storesOk = true) :
    NextOk (execPointerPlaneWrite data s) := by
  unfold execPointerPlaneWrite
  refine nextOk_ite (nextOk_next (twbSays_storesOk h)) ?_
  split
  · exact nextOk_next (twbSays_storesOk h)
  · exact nextOk_next (twbSays_storesOk (ptrBytes_storesOk (setPtr_storesOk h)))

theorem setPhase_storesOk {s : State} {p : LinPhase} (hok : s.storesOk = true) : (setPhase s p).storesOk = true := by
  unfold setPhase
  try dsimp only
  repeat' first
    | with_reducible first
      | assumption | apply ite_storesOk | fail_if_no_progress refine mk_storesOk ?_ rfl rfl rfl rfl rfl
    | fail_if_no_progress dsimp only | split

theorem frameOk_storesOk {s : State} {pid : Byte} (hok : s.storesOk = true) : (frameOk s pid).storesOk = true := by
  unfold frameOk
  try dsimp only
  repeat' first
    | with_reducible first
      | assumption | apply ite_storesOk | apply postEvent_storesOk | apply setB_storesOk
    | fail_if_no_progress dsimp only | split

theorem respError_storesOk {s : State} {matched : Bool} (hok : s.storesOk = true) :
    (respError s matched).storesOk = true := by
  unfold respError
  try dsimp only
  repeat' first
    | with_reducible first
      | assumption | apply ite_storesOk | fail_if_no_progress refine mk_storesOk ?_ rfl rfl rfl rfl rfl
    | fail_if_no_progress dsimp only | split

theorem frameEnd_storesOk {s : State} {pid : Byte} {entry : Option Nat} {len : Nat}
    {bytes : List Byte} (hok : s.storesOk = true) :
    (frameEnd s pid entry len bytes).storesOk = true := by
  unfold frameEnd
  try dsimp only
  repeat' first
    | with_reducible first
      | assumption | apply ite_storesOk | apply setPhase_storesOk | apply frameOk_storesOk
      | apply respError_storesOk | apply halError_storesOk
      | fail_if_no_progress refine mk_storesOk ?_ rfl rfl rfl rfl rfl
    | fail_if_no_progress dsimp only | split

theorem linTake_storesOk {s : State} {b : Byte} (hok : s.storesOk = true) : (linTake s b).storesOk = true := by
  unfold linTake
  try dsimp only
  repeat' first
    | with_reducible first
      | assumption | apply ite_storesOk | apply frameEnd_storesOk | apply setPhase_storesOk
      | fail_if_no_progress refine mk_storesOk ?_ rfl rfl rfl rfl rfl
    | fail_if_no_progress dsimp only | split

theorem linSleep_storesOk {s : State} (hok : s.storesOk = true) : (linSleep s).storesOk = true := by
  unfold linSleep
  try dsimp only
  repeat' first
    | with_reducible first
      | assumption | apply ite_storesOk | apply regWrite_storesOk
    | fail_if_no_progress dsimp only | split

theorem execLinBusIdle_nextOk {s : State} (hok : s.storesOk = true) : NextOk (execLinBusIdle s) := by
  unfold execLinBusIdle
  try dsimp only
  repeat' first
    | with_reducible first
      | assumption | apply ite_storesOk | refine nextOk_next ?_ | apply nextOk_ite | apply linSleep_storesOk
    | fail_if_no_progress dsimp only | split

theorem paramTry_storesOk {s : State} {i : Nat} {v : Cell} (hok : s.storesOk = true) :
    (paramTry s i v).storesOk = true := by
  unfold paramTry
  try dsimp only
  repeat' first
    | with_reducible first
      | assumption | apply ite_storesOk | apply paramStage_storesOk
      | refine paramStage_storesOk' (by assumption) ?_
      | fail_if_no_progress refine mk_storesOk ?_ rfl rfl rfl rfl rfl
    | fail_if_no_progress dsimp only | split

theorem execParamRetry_nextOk {s : State} (hok : s.storesOk = true) : NextOk (execParamRetry s) := by
  unfold execParamRetry
  try dsimp only
  repeat' first
    | with_reducible first
      | assumption | apply ite_storesOk | refine nextOk_next ?_ | apply nextOk_ite | apply paramTry_storesOk
      | refine foldl_storesOk ?_ (fun s x h => ?_)
    | fail_if_no_progress dsimp only | split

theorem uartTake_storesOk {s : State} {c : CharSamples} {b : Byte} {bad : Bool} (hok : s.storesOk = true) :
    (uartTake s c b bad).storesOk = true := by
  unfold uartTake
  try dsimp only
  repeat' first
    | with_reducible first
      | assumption | apply ite_storesOk | apply halError_storesOk | apply postEvent_storesOk
      | fail_if_no_progress refine mk_storesOk ?_ rfl rfl rfl rfl rfl
    | fail_if_no_progress dsimp only | split

theorem framingError_storesOk {s : State} {b : Byte} (hok : s.storesOk = true) :
    (framingError s b).storesOk = true := by
  unfold framingError
  try dsimp only
  repeat' first
    | with_reducible first
      | assumption | apply ite_storesOk | apply logHw_storesOk | apply halError_storesOk
    | fail_if_no_progress dsimp only | split

theorem execUartCharacter_nextOk {c : CharSamples} {s : State} (hok : s.storesOk = true) :
    NextOk (execUartCharacter c s) := by
  unfold execUartCharacter
  try dsimp only
  repeat' first
    | with_reducible first
      | assumption | apply ite_storesOk | refine nextOk_next ?_ | apply nextOk_ite | apply uartTake_storesOk
      | apply framingError_storesOk | apply linTake_storesOk | apply respError_storesOk
      | fail_if_no_progress refine mk_storesOk ?_ rfl rfl rfl rfl rfl
    | fail_if_no_progress dsimp only | split

theorem linWoken_storesOk {s : State} (hok : s.storesOk = true) : (linWoken s).storesOk = true := by
  unfold linWoken
  try dsimp only
  repeat' first
    | with_reducible first
      | assumption | apply ite_storesOk | apply setB_storesOk
      | fail_if_no_progress refine mk_storesOk ?_ rfl rfl rfl rfl rfl
    | fail_if_no_progress dsimp only | split

theorem execLinWakeRetry_nextOk {lrxDominant : Bool} {s : State} (hok : s.storesOk = true) :
    NextOk (execLinWakeRetry lrxDominant s) := by
  unfold execLinWakeRetry
  try dsimp only
  repeat' first
    | with_reducible first
      | assumption | apply ite_storesOk | refine nextOk_next ?_ | apply nextOk_ite | apply linWoken_storesOk
      | fail_if_no_progress refine mk_storesOk ?_ rfl rfl rfl rfl rfl
    | fail_if_no_progress dsimp only | split

theorem execLinBreak_nextOk {bits : BitVec 8} {s : State} (hok : s.storesOk = true) : NextOk (execLinBreak bits s) := by
  unfold execLinBreak
  try dsimp only
  repeat' first
    | with_reducible first
      | assumption | apply ite_storesOk | refine nextOk_next ?_ | apply nextOk_ite
      | fail_if_no_progress refine mk_storesOk ?_ rfl rfl rfl rfl rfl
    | fail_if_no_progress dsimp only | split

theorem execLinSync_nextOk {b : Byte} {clocks : BitVec 32} {s : State} {badStop : Bool} (hok : s.storesOk = true) : NextOk (execLinSync b clocks s badStop) := by
  unfold execLinSync
  try dsimp only
  repeat' first
    | with_reducible first
      | assumption | apply ite_storesOk | refine nextOk_next ?_ | apply nextOk_ite | apply framingError_storesOk
      | apply setPhase_storesOk | apply halError_storesOk
      | fail_if_no_progress refine mk_storesOk ?_ rfl rfl rfl rfl rfl
    | fail_if_no_progress dsimp only | split

theorem execNoResp_nextOk {s : State} (hok : s.storesOk = true) : NextOk (execNoResp s) := by
  unfold execNoResp
  try dsimp only
  repeat' first
    | with_reducible first
      | assumption | apply ite_storesOk | refine nextOk_next ?_ | apply nextOk_ite | apply setPhase_storesOk
      | apply respError_storesOk | apply halError_storesOk
      | fail_if_no_progress refine mk_storesOk ?_ rfl rfl rfl rfl rfl
    | fail_if_no_progress dsimp only | split

theorem execLinPublish_nextOk {bitErr : Bool} {s : State} (hok : s.storesOk = true) :
    NextOk (execLinPublish bitErr s) := by
  unfold execLinPublish
  try dsimp only
  repeat' first
    | with_reducible first
      | assumption | apply ite_storesOk | refine nextOk_next ?_ | apply nextOk_ite | apply setPhase_storesOk
      | apply respError_storesOk | apply halError_storesOk | apply frameOk_storesOk
      | fail_if_no_progress refine mk_storesOk ?_ rfl rfl rfl rfl rfl
    | fail_if_no_progress dsimp only | split

theorem execCharacterSent_nextOk {s : State} (hok : s.storesOk = true) : NextOk (execCharacterSent s) := by
  unfold execCharacterSent
  try dsimp only
  repeat' first
    | with_reducible first
      | assumption | apply ite_storesOk | refine nextOk_next ?_ | apply nextOk_ite | apply setReg_storesOk
      | fail_if_no_progress refine mk_storesOk ?_ rfl rfl rfl rfl rfl
    | fail_if_no_progress dsimp only | split

theorem execLinPid_nextOk {pid : Byte} {s : State} {badStop : Bool} (hok : s.storesOk = true) : NextOk (execLinPid pid s badStop) := by
  unfold execLinPid
  try dsimp only
  repeat' first
    | with_reducible first
      | assumption | apply ite_storesOk | refine nextOk_next ?_ | apply nextOk_ite | apply framingError_storesOk
      | apply respError_storesOk | apply setPhase_storesOk | apply respRefresh_storesOk | apply halError_storesOk
      | fail_if_no_progress refine mk_storesOk ?_ rfl rfl rfl rfl rfl
    | fail_if_no_progress dsimp only | split

theorem execParamIn_nextOk {s : State} (hok : s.storesOk = true) : NextOk (execParamIn s) := by
  unfold execParamIn
  try dsimp only
  repeat' first
    | with_reducible first
      | assumption | apply ite_storesOk | refine nextOk_next ?_ | apply nextOk_ite | apply paramTry_storesOk
      | apply setPhase_storesOk | fail_if_no_progress refine mk_storesOk ?_ rfl rfl rfl rfl rfl
    | fail_if_no_progress dsimp only | split

theorem execTrigger_nextOk {s : State} (hok : s.storesOk = true) : NextOk (execTrigger s) := by
  unfold execTrigger
  try dsimp only
  repeat' first
    | with_reducible first
      | assumption | apply ite_storesOk | refine nextOk_next ?_ | apply nextOk_ite | apply setPhase_storesOk
      | fail_if_no_progress refine mk_storesOk ?_ rfl rfl rfl rfl rfl
    | fail_if_no_progress dsimp only | split

theorem execGoToSleep_nextOk {s : State} (hok : s.storesOk = true) : NextOk (execGoToSleep s) := by
  unfold execGoToSleep
  try dsimp only
  repeat' first
    | with_reducible first
      | assumption | apply ite_storesOk | refine nextOk_next ?_ | apply nextOk_ite | apply linSleep_storesOk
      | apply setPhase_storesOk | fail_if_no_progress refine mk_storesOk ?_ rfl rfl rfl rfl rfl
    | fail_if_no_progress dsimp only | split

theorem execLinWakeSend_nextOk {w : Option RegWrite} {lrxDominant : Bool} {s : State} (hok : s.storesOk = true) :
    NextOk (execLinWakeSend w lrxDominant s) := by
  unfold execLinWakeSend
  try dsimp only
  repeat' first
    | with_reducible first
      | assumption | apply ite_storesOk | refine nextOk_next ?_ | apply nextOk_ite | apply regWrite_storesOk
      | apply linWoken_storesOk | fail_if_no_progress refine mk_storesOk ?_ rfl rfl rfl rfl rfl
    | fail_if_no_progress dsimp only | split

theorem execLinWakeEnd_nextOk {lrxDominant : Bool} {s : State} (hok : s.storesOk = true) :
    NextOk (execLinWakeEnd lrxDominant s) := by
  unfold execLinWakeEnd
  try dsimp only
  repeat' first
    | with_reducible first
      | assumption | apply ite_storesOk | refine nextOk_next ?_ | apply nextOk_ite | apply linWoken_storesOk
      | fail_if_no_progress refine mk_storesOk ?_ rfl rfl rfl rfl rfl
    | fail_if_no_progress dsimp only | split

theorem execTriggerTimeout_nextOk {s : State} (hok : s.storesOk = true) : NextOk (execTriggerTimeout s) := by
  unfold execTriggerTimeout
  try dsimp only
  repeat' first
    | with_reducible first
      | assumption | apply ite_storesOk | refine nextOk_next ?_ | apply nextOk_ite
      | fail_if_no_progress refine mk_storesOk ?_ rfl rfl rfl rfl rfl
    | fail_if_no_progress dsimp only | split

theorem portUnderrun_storesOk {s : State} {port : Nat} {slot : Nat} (hok : s.storesOk = true) :
    (portUnderrun s port slot).storesOk = true := by
  unfold portUnderrun
  try dsimp only
  repeat' first
    | with_reducible first
      | assumption | apply ite_storesOk | apply logHw_storesOk | apply audFlag_storesOk | apply countUp_storesOk
    | fail_if_no_progress dsimp only | split

theorem execConverterUnderrun_nextOk {out : Bool} {s : State} (hok : s.storesOk = true) :
    NextOk (execConverterUnderrun out s) := by
  unfold execConverterUnderrun
  try dsimp only
  repeat' first
    | with_reducible first
      | assumption | apply ite_storesOk | refine nextOk_next ?_ | apply nextOk_ite | apply portUnderrun_storesOk
    | fail_if_no_progress dsimp only | split

theorem setAsr_storesOk {s : State} {out : Bool} {a : Asr} (hok : s.storesOk = true) :
    (setAsr s out a).storesOk = true := by
  unfold setAsr
  try dsimp only
  repeat' first
    | with_reducible first
      | assumption | apply ite_storesOk | fail_if_no_progress refine mk_storesOk ?_ rfl rfl rfl rfl rfl
    | fail_if_no_progress dsimp only | split

theorem asrMove_storesOk {s : State} {out : Bool} {a : Asr} (hok : s.storesOk = true) :
    (asrMove s out a).storesOk = true := by
  unfold asrMove
  try dsimp only
  repeat' first
    | with_reducible first
      | assumption | apply ite_storesOk | apply setAsr_storesOk | apply raiseFlag_storesOk
    | fail_if_no_progress dsimp only | split

theorem asrSettle_storesOk {s : State} {out : Bool} (hok : s.storesOk = true) : (asrSettle s out).storesOk = true := by
  unfold asrSettle
  try dsimp only
  repeat' first
    | with_reducible first
      | assumption | apply ite_storesOk | apply asrMove_storesOk
      | fail_if_no_progress refine mk_storesOk ?_ rfl rfl rfl rfl rfl
    | fail_if_no_progress dsimp only | split

theorem asrTrack_storesOk {s : State} {out : Bool} {ratio : Word} {held : Nat} (hok : s.storesOk = true) :
    (asrTrack s out ratio held).storesOk = true := by
  unfold asrTrack
  try dsimp only
  repeat' first
    | with_reducible first
      | assumption | apply ite_storesOk | apply setAsr_storesOk
      | fail_if_no_progress refine mk_storesOk ?_ rfl rfl rfl rfl rfl
    | fail_if_no_progress dsimp only | split

theorem senseIn_storesOk {s : State} {t : TickIn} (hok : s.storesOk = true) : (senseIn s t).storesOk = true := by
  unfold senseIn
  try dsimp only
  repeat' first
    | with_reducible first
      | assumption | apply ite_storesOk | apply setPort_storesOk | refine foldl_storesOk ?_ (fun s x h => ?_)
    | fail_if_no_progress dsimp only | split

theorem audbIn_storesOk {s : State} {t : TickIn} (hok : s.storesOk = true) : (audbIn s t).storesOk = true := by
  unfold audbIn
  try dsimp only
  repeat' first
    | with_reducible first
      | assumption | apply ite_storesOk | apply setPort_storesOk | apply setAsr_storesOk
      | refine foldl_storesOk ?_ (fun s x h => ?_) | fail_if_no_progress refine mk_storesOk ?_ rfl rfl rfl rfl rfl
    | fail_if_no_progress dsimp only | split

theorem fadeTick_storesOk {s : State} (hok : s.storesOk = true) : (fadeTick s).storesOk = true := by
  unfold fadeTick
  try dsimp only
  repeat' first
    | with_reducible first
      | assumption | apply ite_storesOk | fail_if_no_progress refine mk_storesOk ?_ rfl rfl rfl rfl rfl
    | fail_if_no_progress dsimp only | split

theorem audioOut_storesOk {s : State} (hok : s.storesOk = true) : (audioOut s).storesOk = true := by
  unfold audioOut
  try dsimp only
  repeat' first
    | with_reducible first
      | assumption | apply ite_storesOk | apply gainsTick_storesOk | refine foldl_storesOk ?_ (fun s x h => ?_)
      | fail_if_no_progress refine mk_storesOk ?_ rfl rfl rfl rfl rfl
    | fail_if_no_progress dsimp only | split

theorem checkUnderruns_storesOk {s : State} (hok : s.storesOk = true) : (checkUnderruns s).storesOk = true := by
  unfold checkUnderruns
  try dsimp only
  repeat' first
    | with_reducible first
      | assumption | apply ite_storesOk | apply portUnderrun_storesOk | refine foldl_storesOk ?_ (fun s x h => ?_)
      | fail_if_no_progress refine mk_storesOk ?_ rfl rfl rfl rfl rfl
    | fail_if_no_progress dsimp only | split

theorem asrCells_storesOk {s : State} {out : Bool} (hok : s.storesOk = true) : (asrCells s out).storesOk = true := by
  unfold asrCells
  try dsimp only
  repeat' first
    | with_reducible first
      | assumption | apply ite_storesOk | apply setPort_storesOk
    | fail_if_no_progress dsimp only | split

theorem audioTick_storesOk {s : State} {t : TickIn} (hok : s.storesOk = true) : (audioTick s t).storesOk = true := by
  unfold audioTick
  try dsimp only
  repeat' first
    | with_reducible first
      | assumption | apply ite_storesOk | apply asrSettle_storesOk | apply asrTrack_storesOk
      | apply senseIn_storesOk | apply audbIn_storesOk | apply fadeTick_storesOk | apply audioOut_storesOk
      | apply checkUnderruns_storesOk | apply asrCells_storesOk
      | fail_if_no_progress refine mk_storesOk ?_ rfl rfl rfl rfl rfl
    | fail_if_no_progress dsimp only | split

theorem execAsrcPhaseLoss_nextOk {out : Bool} {s : State} (hok : s.storesOk = true) :
    NextOk (execAsrcPhaseLoss out s) := by
  unfold execAsrcPhaseLoss
  try dsimp only
  repeat' first
    | with_reducible first
      | assumption | apply ite_storesOk | refine nextOk_next ?_ | apply nextOk_ite | apply asrMove_storesOk
      | fail_if_no_progress refine mk_storesOk ?_ rfl rfl rfl rfl rfl
    | fail_if_no_progress dsimp only | split

theorem execAsrcNoClock_nextOk {out : Bool} {s : State} (hok : s.storesOk = true) : NextOk (execAsrcNoClock out s) := by
  unfold execAsrcNoClock
  try dsimp only
  repeat' first
    | with_reducible first
      | assumption | apply ite_storesOk | refine nextOk_next ?_ | apply nextOk_ite | apply asrMove_storesOk
      | fail_if_no_progress refine mk_storesOk ?_ rfl rfl rfl rfl rfl
    | fail_if_no_progress dsimp only | split

theorem execPortOverrun_nextOk {out : Bool} {s : State} (hok : s.storesOk = true) : NextOk (execPortOverrun out s) := by
  unfold execPortOverrun
  try dsimp only
  repeat' first
    | with_reducible first
      | assumption | apply ite_storesOk | refine nextOk_next ?_ | apply nextOk_ite | apply audFlag_storesOk
      | apply countUp_storesOk | apply logHw_storesOk
    | fail_if_no_progress dsimp only | split

theorem execAsrcLocked_nextOk {out : Bool} {ratio : Word} {ms : Byte} {s : State} (hok : s.storesOk = true) :
    NextOk (execAsrcLocked out ratio ms s) := by
  unfold execAsrcLocked
  try dsimp only
  repeat' first
    | with_reducible first
      | assumption | apply ite_storesOk | refine nextOk_next ?_ | apply nextOk_ite | apply asrMove_storesOk
      | fail_if_no_progress refine mk_storesOk ?_ rfl rfl rfl rfl rfl
    | fail_if_no_progress dsimp only | split

theorem execAsrcAcquiring_nextOk {out : Bool} {ratio : Word} {s : State} (hok : s.storesOk = true) :
    NextOk (execAsrcAcquiring out ratio s) := by
  unfold execAsrcAcquiring
  try dsimp only
  repeat' first
    | with_reducible first
      | assumption | apply ite_storesOk | refine nextOk_next ?_ | apply nextOk_ite | apply asrMove_storesOk
      | fail_if_no_progress refine mk_storesOk ?_ rfl rfl rfl rfl rfl
    | fail_if_no_progress dsimp only | split

theorem romSound_storesOk {s : State} (hok : s.storesOk = true) : (romSound s).storesOk = true := by
  unfold romSound
  try dsimp only
  repeat' first
    | with_reducible first
      | assumption | apply ite_storesOk | apply setPort_storesOk
      | fail_if_no_progress refine mk_storesOk ?_ rfl rfl rfl rfl rfl
    | fail_if_no_progress dsimp only | split

theorem wakeReport_storesOk {s : State} (hok : s.storesOk = true) : (wakeReport s).storesOk = true := by
  unfold wakeReport
  try dsimp only
  repeat' first
    | with_reducible first
      | assumption | apply ite_storesOk | apply tallySample_storesOk
      | fail_if_no_progress refine mk_storesOk ?_ rfl rfl rfl rfl rfl
    | fail_if_no_progress dsimp only | split

theorem execEnterHoldover_nextOk {s : State} (hok : s.storesOk = true) : NextOk (execEnterHoldover s) := by
  unfold execEnterHoldover
  try dsimp only
  repeat' first
    | with_reducible first
      | assumption | apply ite_storesOk | refine nextOk_next ?_ | apply nextOk_ite | apply holdCarry_storesOk
    | fail_if_no_progress dsimp only | split

theorem headFault_storesOk {s : State} {n a : Nat} (h : s.storesOk = true) : (headFault s n a).storesOk = true := by
  unfold headFault
  exact ite_storesOk h (mem_storesOk (logHw_storesOk h) (fun hm => hm) rfl rfl rfl rfl)

theorem headStep_storesOk {s : State} {n : Nat} (h : s.storesOk = true) : (headStep s n).storesOk = true := by
  unfold headStep
  dsimp only
  refine ite_storesOk (headFault_storesOk (eccRead_storesOk h)) (ite_storesOk (eccRead_storesOk h)
    (ite_storesOk (headFault_storesOk (eccRead_storesOk (eccRead_storesOk h))) ?_))
  refine mem_storesOk (eccRead_storesOk (eccRead_storesOk h)) (fun hm => ?_) rfl rfl rfl rfl
  rw [memWf_iff] at hm; dsimp only; rw [eccClear_wf, memWf_iff]
  exact ⟨hm.1, hm.2.1, hm.2.2.1, hm.2.2.2.1, hm.2.2.2.2.1, swf_sput hm.2.2.2.2.2.1, hm.2.2.2.2.2.2⟩

theorem headsTick_storesOk {s : State} (hok : s.storesOk = true) : (headsTick s).storesOk = true := by
  unfold headsTick
  try dsimp only
  repeat' first
    | with_reducible first
      | assumption | apply ite_storesOk | apply headStep_storesOk | apply reelTick_storesOk
      | refine foldl_storesOk ?_ (fun s x h => ?_) | fail_if_no_progress refine mk_storesOk ?_ rfl rfl rfl rfl rfl
    | fail_if_no_progress dsimp only | split

theorem starveEvent_storesOk {s : State} {e : Nat} (hok : s.storesOk = true) : (starveEvent s e).storesOk = true := by
  unfold starveEvent
  try dsimp only
  repeat' first
    | with_reducible first
      | assumption | apply ite_storesOk | apply logHw_storesOk
      | fail_if_no_progress refine mk_storesOk ?_ rfl rfl rfl rfl rfl
    | fail_if_no_progress dsimp only | split

theorem starveEvents_storesOk {s : State} (hok : s.storesOk = true) : (starveEvents s).storesOk = true := by
  unfold starveEvents
  try dsimp only
  repeat' first
    | with_reducible first
      | assumption | apply ite_storesOk | apply starveEvent_storesOk | refine foldl_storesOk ?_ (fun s x h => ?_)
    | fail_if_no_progress dsimp only | split

theorem execSlackStarved_nextOk {s : State} (hok : s.storesOk = true) : NextOk (execSlackStarved s) := by
  unfold execSlackStarved
  try dsimp only
  repeat' first
    | with_reducible first
      | assumption | apply ite_storesOk | refine nextOk_next ?_ | apply nextOk_ite | apply starveEvents_storesOk
    | fail_if_no_progress dsimp only | split

theorem duePass_storesOk {s : State} (hok : s.storesOk = true) : (duePass s).storesOk = true := by
  unfold duePass
  try dsimp only
  repeat' first
    | with_reducible first
      | assumption | apply ite_storesOk | apply quiesceLeave_storesOk | apply starveEvents_storesOk
      | apply lightTick_storesOk
    | fail_if_no_progress dsimp only | split

theorem slackBegin_storesOk {s : State} (hok : s.storesOk = true) : (slackBegin s).storesOk = true := by
  unfold slackBegin
  try dsimp only
  repeat' first
    | with_reducible first
      | assumption | apply ite_storesOk | fail_if_no_progress refine mk_storesOk ?_ rfl rfl rfl rfl rfl
    | fail_if_no_progress dsimp only | split

theorem runEnter_storesOk {s : State} (hok : s.storesOk = true) : (runEnter s).storesOk = true := by
  unfold runEnter
  try dsimp only
  repeat' first
    | with_reducible first
      | assumption | apply ite_storesOk | apply slackBegin_storesOk | apply changeMode_storesOk
      | apply handoverBegin_storesOk | apply wakeReport_storesOk | apply whipReset_storesOk
      | fail_if_no_progress refine mk_storesOk ?_ rfl rfl rfl rfl rfl
    | fail_if_no_progress dsimp only | split

theorem ageEvents_storesOk {s : State} (hok : s.storesOk = true) : (ageEvents s).storesOk = true := by
  unfold ageEvents
  try dsimp only
  repeat' first
    | with_reducible first
      | assumption | apply ite_storesOk | refine foldl_storesOk ?_ (fun s x h => ?_)
      | fail_if_no_progress refine mk_storesOk ?_ rfl rfl rfl rfl rfl
    | fail_if_no_progress dsimp only | split

theorem takeWrites_storesOk {s : State} (hok : s.storesOk = true) : (takeWrites s).storesOk = true := by
  unfold takeWrites
  try dsimp only
  repeat' first
    | with_reducible first
      | assumption | apply ite_storesOk | apply setReg_storesOk | apply setF_storesOk
      | refine foldl_storesOk ?_ (fun s x h => ?_) | fail_if_no_progress refine mk_storesOk ?_ rfl rfl rfl rfl rfl
    | fail_if_no_progress dsimp only | split

theorem nextFrame_storesOk {s : State} (hok : s.storesOk = true) : (nextFrame s).storesOk = true := by
  unfold nextFrame
  try dsimp only
  repeat' first
    | with_reducible first
      | assumption | apply ite_storesOk | apply setReg_storesOk | apply takeWrites_storesOk
    | fail_if_no_progress dsimp only | split

theorem endReport_storesOk {s : State} (hok : s.storesOk = true) : (endReport s).storesOk = true := by
  unfold endReport
  try dsimp only
  repeat' first
    | with_reducible first
      | assumption | apply ite_storesOk | apply setReg_storesOk | apply tallySample_storesOk
    | fail_if_no_progress dsimp only | split

theorem taintTick_storesOk {s : State} (hok : s.storesOk = true) : (taintTick s).storesOk = true := by
  unfold taintTick
  try dsimp only
  repeat' first
    | with_reducible first
      | assumption | apply ite_storesOk | apply setF_storesOk | apply setB_storesOk | apply countUp_storesOk
    | fail_if_no_progress dsimp only | split

theorem endFrame_storesOk {s : State} (hok : s.storesOk = true) : (endFrame s).storesOk = true := by
  unfold endFrame
  try dsimp only
  repeat' first
    | with_reducible first
      | assumption | apply ite_storesOk | apply pinTry_storesOk | apply runToFence_storesOk
      | apply romEnded_storesOk | apply passSlots_storesOk | apply wdogRestart_storesOk
    | fail_if_no_progress dsimp only | split

theorem frameClear_storesOk {s : State} (hok : s.storesOk = true) : (frameClear s).storesOk = true := by
  unfold frameClear
  try dsimp only
  repeat' first
    | with_reducible first
      | assumption | apply ite_storesOk | fail_if_no_progress refine mk_storesOk ?_ rfl rfl rfl rfl rfl
    | fail_if_no_progress dsimp only | split

theorem runLoaded_storesOk {s : State} (hok : s.storesOk = true) : (runLoaded s).storesOk = true := by
  unfold runLoaded
  try dsimp only
  repeat' first
    | with_reducible first
      | assumption | apply ite_storesOk | apply setBoot_storesOk | apply runEnter_storesOk
      | fail_if_no_progress refine mk_storesOk ?_ rfl rfl rfl rfl rfl
    | fail_if_no_progress dsimp only | split

theorem layHome_storesOk {s : State} (hok : s.storesOk = true) : (layHome s).storesOk = true := by
  unfold layHome
  try dsimp only
  repeat' first
    | with_reducible first
      | assumption | apply ite_storesOk | fail_if_no_progress refine mk_storesOk ?_ rfl rfl rfl rfl rfl
    | fail_if_no_progress dsimp only | split

theorem workshopEnter_storesOk {s : State} (hok : s.storesOk = true) : (workshopEnter s).storesOk = true := by
  unfold workshopEnter
  try dsimp only
  repeat' first
    | with_reducible first
      | assumption | apply ite_storesOk | apply layHome_storesOk | apply changeMode_storesOk | apply setF_storesOk
      | fail_if_no_progress refine mk_storesOk ?_ rfl rfl rfl rfl rfl
    | fail_if_no_progress dsimp only | split

theorem modeTick_storesOk {s : State} (hok : s.storesOk = true) : (modeTick s).storesOk = true := by
  unfold modeTick
  try dsimp only
  repeat' first
    | with_reducible first
      | assumption | apply ite_storesOk | apply setResult_storesOk | apply runEnter_storesOk | apply setF_storesOk
      | apply runLoaded_storesOk | apply workshopEnter_storesOk
      | fail_if_no_progress refine mk_storesOk ?_ rfl rfl rfl rfl rfl
    | fail_if_no_progress dsimp only | split

theorem audioSamples_storesOk {s : State} (hok : s.storesOk = true) : (audioSamples s).storesOk = true := by
  unfold audioSamples
  try dsimp only
  repeat' first
    | with_reducible first
      | assumption | apply ite_storesOk | apply tallySample_storesOk | refine foldl_storesOk ?_ (fun s x h => ?_)
    | fail_if_no_progress dsimp only | split

theorem frameLength_storesOk {s : State} (hok : s.storesOk = true) : (frameLength s).storesOk = true := by
  unfold frameLength
  try dsimp only
  repeat' first
    | with_reducible first
      | assumption | apply ite_storesOk | apply alignStep_storesOk | refine alignStep_storesOk' (by assumption) ?_
      | apply setF_storesOk | fail_if_no_progress refine mk_storesOk ?_ rfl rfl rfl rfl rfl
    | fail_if_no_progress dsimp only | split

theorem flightAll_storesOk {s : State} (hok : s.storesOk = true) :
    (flightAll s).storesOk = true := by
  unfold flightAll
  try dsimp only
  repeat' first
    | with_reducible first
      | assumption | apply ite_storesOk | refine foldl_storesOk ?_ (fun s x h => ?_)
      | fail_if_no_progress refine mk_storesOk ?_ rfl rfl rfl rfl rfl
    | fail_if_no_progress dsimp only | split

theorem layStart_storesOk {s : State} (hok : s.storesOk = true) : (layStart s).storesOk = true := by
  unfold layStart
  try dsimp only
  repeat' first
    | with_reducible first
      | assumption | apply ite_storesOk | apply romSound_storesOk | apply storeCommit_storesOk
      | apply flightAll_storesOk | fail_if_no_progress refine mk_storesOk ?_ rfl rfl rfl rfl rfl
    | fail_if_no_progress dsimp only | split

theorem rateTake_storesOk {s : State} (hok : s.storesOk = true) :
    (rateTake s).storesOk = true := by
  unfold rateTake
  try dsimp only
  repeat' first
    | with_reducible first
      | assumption | apply ite_storesOk | fail_if_no_progress refine mk_storesOk ?_ rfl rfl rfl rfl rfl
    | fail_if_no_progress dsimp only | split

theorem layTick_storesOk {s : State} (hok : s.storesOk = true) :
    (layTick s).storesOk = true := by
  unfold layTick
  try dsimp only
  repeat' first
    | with_reducible first
      | assumption | apply ite_storesOk | apply layHome_storesOk
      | fail_if_no_progress refine mk_storesOk ?_ rfl rfl rfl rfl rfl
    | fail_if_no_progress dsimp only | split

theorem frameTick_storesOk {t : TickIn} {s : State} (hok : s.storesOk = true) : (frameTick t s).storesOk = true := by
  unfold frameTick
  try dsimp only
  repeat' first
    | with_reducible first
      | assumption | apply ite_storesOk | apply rateTake_storesOk | apply nextFrame_storesOk
      | apply endReport_storesOk | apply taintTick_storesOk | apply endFrame_storesOk | apply handoverTick_storesOk
      | apply headsTick_storesOk | apply frameClear_storesOk | apply ageEvents_storesOk
      | apply dropRequest_storesOk | apply modeTick_storesOk | apply audioSamples_storesOk
      | apply audioTick_storesOk | apply spliceTick_storesOk | apply layTick_storesOk | apply frameLength_storesOk
      | apply layStart_storesOk | apply svcTick_storesOk | apply quietCheck_storesOk
      | fail_if_no_progress refine mk_storesOk ?_ rfl rfl rfl rfl rfl
    | fail_if_no_progress dsimp only | split

theorem execStartPulse_nextOk {s : State} (hok : s.storesOk = true) : NextOk (execStartPulse s) := by
  unfold execStartPulse
  try dsimp only
  repeat' first
    | with_reducible first
      | assumption | apply ite_storesOk | refine nextOk_next ?_ | apply nextOk_ite | apply romEnded_storesOk
      | apply passSlots_storesOk | apply duePass_storesOk
      | fail_if_no_progress refine mk_storesOk ?_ rfl rfl rfl rfl rfl
    | fail_if_no_progress dsimp only | split

theorem execLightTick_nextOk {s : State} (hok : s.storesOk = true) : NextOk (execLightTick s) := by
  unfold execLightTick
  try dsimp only
  repeat' first
    | with_reducible first
      | assumption | apply ite_storesOk | refine nextOk_next ?_ | apply nextOk_ite | apply lightTick_storesOk
    | fail_if_no_progress dsimp only | split

theorem execFrameTick_nextOk {t : TickIn} {s : State} (hok : s.storesOk = true) : NextOk (execFrameTick t s) := by
  unfold execFrameTick
  try dsimp only
  repeat' first
    | with_reducible first
      | assumption | apply ite_storesOk | refine nextOk_next ?_ | apply nextOk_ite | apply duePass_storesOk
      | apply frameTick_storesOk
    | fail_if_no_progress dsimp only | split

theorem wr_nextOk {src : Source} {r : Nat} {v : Word} {s : State} (hok : s.storesOk = true) :
    NextOk (wr src r v s) := by
  unfold wr
  try dsimp only
  repeat' first
    | with_reducible first
      | assumption | apply ite_storesOk | refine nextOk_next ?_ | apply nextOk_ite | apply regWrite_storesOk
    | fail_if_no_progress dsimp only | split

theorem execSysFrameWrite_nextOk {src : Source} {v : Word} {s : State} (hok : s.storesOk = true) :
    NextOk (execSysFrameWrite src v s) := by
  unfold execSysFrameWrite
  try dsimp only
  repeat' first
    | with_reducible first
      | assumption | apply ite_storesOk | refine nextOk_next ?_ | apply nextOk_ite | apply wr_nextOk
    | fail_if_no_progress dsimp only | split

theorem execTakeover_nextOk {w : Option RegWrite} {s : State} (hok : s.storesOk = true) :
    NextOk (execTakeover w s) := by
  unfold execTakeover
  try dsimp only
  repeat' first
    | with_reducible first
      | assumption | apply ite_storesOk | refine nextOk_next ?_ | apply nextOk_ite | apply wr_nextOk
      | apply takeOver_storesOk | fail_if_no_progress refine mk_storesOk ?_ rfl rfl rfl rfl rfl
    | fail_if_no_progress dsimp only | split

theorem execMonSample_nextOk {s : State} (hok : s.storesOk = true) : NextOk (execMonSample s) := by
  unfold execMonSample
  try dsimp only
  repeat' first
    | with_reducible first
      | assumption | apply ite_storesOk | refine nextOk_next ?_ | apply nextOk_ite
      | fail_if_no_progress refine mk_storesOk ?_ rfl rfl rfl rfl rfl
    | fail_if_no_progress dsimp only | split

theorem execLogFreezeExpire_nextOk {s : State} (hok : s.storesOk = true) : NextOk (execLogFreezeExpire s) := by
  unfold execLogFreezeExpire
  try dsimp only
  repeat' first
    | with_reducible first
      | assumption | apply ite_storesOk | refine nextOk_next ?_ | apply nextOk_ite | apply setB_storesOk
    | fail_if_no_progress dsimp only | split

theorem request_nextOk {src : Source} {target : Nat} {s : State} (hok : s.storesOk = true) :
    NextOk (request src target s) := by
  unfold request
  try dsimp only
  repeat' first
    | with_reducible first
      | assumption | apply ite_storesOk | refine nextOk_next ?_ | apply nextOk_ite | apply wr_nextOk
    | fail_if_no_progress dsimp only | split

theorem execModeReqStandbyRaise_nextOk {src : Source} {four : Bool} {s : State} (hok : s.storesOk = true) :
    NextOk (execModeReqStandbyRaise src four s) := by
  unfold execModeReqStandbyRaise
  try dsimp only
  repeat' first
    | with_reducible first
      | assumption | apply ite_storesOk | refine nextOk_next ?_ | apply nextOk_ite | apply request_nextOk
    | fail_if_no_progress dsimp only | split

theorem execLeaveLimpWorkshop_nextOk {src : Source} {s : State} (hok : s.storesOk = true) :
    NextOk (execLeaveLimpWorkshop src s) := by
  unfold execLeaveLimpWorkshop
  try dsimp only
  repeat' first
    | with_reducible first
      | assumption | apply ite_storesOk | refine nextOk_next ?_ | apply nextOk_ite | apply request_nextOk
    | fail_if_no_progress dsimp only | split

theorem execModeReqWorkshop_nextOk {src : Source} {s : State} (hok : s.storesOk = true) :
    NextOk (execModeReqWorkshop src s) := by
  unfold execModeReqWorkshop
  try dsimp only
  repeat' first
    | with_reducible first
      | assumption | apply ite_storesOk | refine nextOk_next ?_ | apply nextOk_ite | apply request_nextOk
    | fail_if_no_progress dsimp only | split

theorem execReelChannelStop_nextOk {src : Source} {ch : Fin 8} {v : Word} {s : State} (hok : s.storesOk = true) :
    NextOk (execReelChannelStop src ch v s) := by
  unfold execReelChannelStop
  try dsimp only
  repeat' first
    | with_reducible first
      | assumption | apply ite_storesOk | refine nextOk_next ?_ | apply nextOk_ite | apply wr_nextOk
    | fail_if_no_progress dsimp only | split

theorem execCommitWrite_nextOk {src : Source} {frame : Word} {s : State} (hok : s.storesOk = true) :
    NextOk (execCommitWrite src frame s) := by
  unfold execCommitWrite
  try dsimp only
  repeat' first
    | with_reducible first
      | assumption | apply ite_storesOk | refine nextOk_next ?_ | apply nextOk_ite | apply wr_nextOk
    | fail_if_no_progress dsimp only | split

theorem execSysOwnerWrite_nextOk {src : Source} {v : Word} {s : State} (hok : s.storesOk = true) :
    NextOk (execSysOwnerWrite src v s) := by
  unfold execSysOwnerWrite
  try dsimp only
  repeat' first
    | with_reducible first
      | assumption | apply ite_storesOk | refine nextOk_next ?_ | apply nextOk_ite | apply wr_nextOk
    | fail_if_no_progress dsimp only | split

theorem execWhipStart_nextOk {src : Source} {u : Fin 4} {v : Word} {s : State} (hok : s.storesOk = true) :
    NextOk (execWhipStart src u v s) := by
  unfold execWhipStart
  try dsimp only
  repeat' first
    | with_reducible first
      | assumption | apply ite_storesOk | refine nextOk_next ?_ | apply nextOk_ite | apply wr_nextOk
    | fail_if_no_progress dsimp only | split

theorem execStepWrite_nextOk {src : Source} {v : Word} {s : State} (hok : s.storesOk = true) :
    NextOk (execStepWrite src v s) := by
  unfold execStepWrite
  try dsimp only
  repeat' first
    | with_reducible first
      | assumption | apply ite_storesOk | refine nextOk_next ?_ | apply nextOk_ite | apply wr_nextOk
    | fail_if_no_progress dsimp only | split

theorem execModeReqResume_nextOk {src : Source} {s : State} (hok : s.storesOk = true) :
    NextOk (execModeReqResume src s) := by
  unfold execModeReqResume
  try dsimp only
  repeat' first
    | with_reducible first
      | assumption | apply ite_storesOk | refine nextOk_next ?_ | apply nextOk_ite | apply request_nextOk
    | fail_if_no_progress dsimp only | split

theorem whipDrain_storesOk {u n : Nat} {s : State} (h : s.storesOk = true) : (whipDrain u n s).storesOk = true := by
  induction n generalizing s with
  | zero => exact h
  | succ n ih => exact ih (whipClock_storesOk h)

theorem execWhipCompare_nextOk {u : Fin 4} {s : State} (hok : s.storesOk = true) : NextOk (execWhipCompare u s) := by
  unfold execWhipCompare
  try dsimp only
  repeat' first
    | with_reducible first
      | assumption | apply ite_storesOk | refine nextOk_next ?_ | apply nextOk_ite | apply whipDrain_storesOk
      | fail_if_no_progress refine mk_storesOk ?_ rfl rfl rfl rfl rfl
    | fail_if_no_progress dsimp only | split

theorem rd_storesOk {src : Source} {r : Nat} {s : State} (hok : s.storesOk = true) : (rd src r s).storesOk = true := by
  unfold rd
  try dsimp only
  repeat' first
    | with_reducible first
      | assumption | apply ite_storesOk | apply readEffect_storesOk
    | fail_if_no_progress dsimp only | split

theorem execTwbCbufAccess_nextOk {src : Source} {w : Option Word} {s : State} (hok : s.storesOk = true) :
    NextOk (execTwbCbufAccess src w s) := by
  unfold execTwbCbufAccess
  try dsimp only
  repeat' first
    | with_reducible first
      | assumption | apply ite_storesOk | refine nextOk_next ?_ | apply nextOk_ite | apply wr_nextOk
      | apply rd_storesOk | fail_if_no_progress refine mk_storesOk ?_ rfl rfl rfl rfl rfl
    | fail_if_no_progress dsimp only | split

theorem execFaultPinHoldEnd_nextOk {s : State} (hok : s.storesOk = true) : NextOk (execFaultPinHoldEnd s) := by
  unfold execFaultPinHoldEnd
  try dsimp only
  repeat' first
    | with_reducible first
      | assumption | apply ite_storesOk | refine nextOk_next ?_ | apply nextOk_ite | apply pinSettle_storesOk
      | fail_if_no_progress refine mk_storesOk ?_ rfl rfl rfl rfl rfl
    | fail_if_no_progress dsimp only | split

theorem wrBytes_nextOk {src : Source} {r : Nat} {v : Word} {be : Nat} {s : State} (hok : s.storesOk = true) :
    NextOk (wrBytes src r v be s) := by
  unfold wrBytes
  try dsimp only
  repeat' first
    | with_reducible first
      | assumption | apply ite_storesOk | refine nextOk_next ?_ | apply nextOk_ite | apply writeReg_storesOk
      | refine writeReg_storesOk' (by assumption) ?_
    | fail_if_no_progress dsimp only | split

theorem execModeReqStandbyDormant_nextOk {src : Source} {s : State} (hok : s.storesOk = true) :
    NextOk (execModeReqStandbyDormant src s) := by
  unfold execModeReqStandbyDormant
  try dsimp only
  repeat' first
    | with_reducible first
      | assumption | apply ite_storesOk | refine nextOk_next ?_ | apply nextOk_ite | apply request_nextOk
    | fail_if_no_progress dsimp only | split

theorem execModeReqQuiesce_nextOk {src : Source} {standby : Bool} {s : State} (hok : s.storesOk = true) :
    NextOk (execModeReqQuiesce src standby s) := by
  unfold execModeReqQuiesce
  try dsimp only
  repeat' first
    | with_reducible first
      | assumption | apply ite_storesOk | refine nextOk_next ?_ | apply nextOk_ite | apply request_nextOk
    | fail_if_no_progress dsimp only | split

theorem execLeaveLimpDormant_nextOk {src : Source} {s : State} (hok : s.storesOk = true) :
    NextOk (execLeaveLimpDormant src s) := by
  unfold execLeaveLimpDormant
  try dsimp only
  repeat' first
    | with_reducible first
      | assumption | apply ite_storesOk | refine nextOk_next ?_ | apply nextOk_ite | apply request_nextOk
    | fail_if_no_progress dsimp only | split

theorem execTwbControllerGo_nextOk {src : Source} {v : Word} {s : State} (hok : s.storesOk = true) :
    NextOk (execTwbControllerGo src v s) := by
  unfold execTwbControllerGo
  try dsimp only
  repeat' first
    | with_reducible first
      | assumption | apply ite_storesOk | refine nextOk_next ?_ | apply nextOk_ite | apply wr_nextOk
    | fail_if_no_progress dsimp only | split

theorem execModeReqWorkshopRun_nextOk {src : Source} {s : State} (hok : s.storesOk = true) :
    NextOk (execModeReqWorkshopRun src s) := by
  unfold execModeReqWorkshopRun
  try dsimp only
  repeat' first
    | with_reducible first
      | assumption | apply ite_storesOk | refine nextOk_next ?_ | apply nextOk_ite | apply request_nextOk
    | fail_if_no_progress dsimp only | split

theorem execStageDataWrite_nextOk {src : Source} {v : Word} {s : State} (hok : s.storesOk = true) :
    NextOk (execStageDataWrite src v s) := by
  unfold execStageDataWrite
  try dsimp only
  repeat' first
    | with_reducible first
      | assumption | apply ite_storesOk | refine nextOk_next ?_ | apply nextOk_ite | apply wr_nextOk
    | fail_if_no_progress dsimp only | split

theorem execWhipFeed_nextOk {src : Source} {u : Fin 4} {reg : FeedReg} {v : Word}
    {s : State} (hok : s.storesOk = true) :
    NextOk (execWhipFeed src u reg v s) := by
  unfold execWhipFeed
  try dsimp only
  repeat' first
    | with_reducible first
      | assumption | apply ite_storesOk | refine nextOk_next ?_ | apply nextOk_ite | apply wr_nextOk
      | fail_if_no_progress refine mk_storesOk ?_ rfl rfl rfl rfl rfl
    | fail_if_no_progress dsimp only | split

theorem execSysReset_nextOk {src : Source} {s : State} (hok : s.storesOk = true) : NextOk (execSysReset src s) := by
  unfold execSysReset
  try dsimp only
  repeat' first
    | with_reducible first
      | assumption | apply ite_storesOk | refine nextOk_next ?_ | apply nextOk_ite | apply wr_nextOk
    | fail_if_no_progress dsimp only | split

theorem execWhipCheck_nextOk {src : Source} {u : Fin 4} {v : Word} {s : State} (hok : s.storesOk = true) :
    NextOk (execWhipCheck src u v s) := by
  unfold execWhipCheck
  try dsimp only
  repeat' first
    | with_reducible first
      | assumption | apply ite_storesOk | refine nextOk_next ?_ | apply nextOk_ite | apply wr_nextOk
    | fail_if_no_progress dsimp only | split

theorem execGpioWrite_nextOk {src : Source} {out : Bool} {v : Word} {s : State} (hok : s.storesOk = true) :
    NextOk (execGpioWrite src out v s) := by
  unfold execGpioWrite
  try dsimp only
  repeat' first
    | with_reducible first
      | assumption | apply ite_storesOk | refine nextOk_next ?_ | apply nextOk_ite | apply wr_nextOk
    | fail_if_no_progress dsimp only | split

theorem execClkNudgeWrite_nextOk {src : Source} {v : Word} {s : State} (hok : s.storesOk = true) :
    NextOk (execClkNudgeWrite src v s) := by
  unfold execClkNudgeWrite
  try dsimp only
  repeat' first
    | with_reducible first
      | assumption | apply ite_storesOk | refine nextOk_next ?_ | apply nextOk_ite | apply wr_nextOk
    | fail_if_no_progress dsimp only | split

theorem execMonSrcWrite_nextOk {src : Source} {n : Fin 8} {v : Word} {s : State} (hok : s.storesOk = true) :
    NextOk (execMonSrcWrite src n v s) := by
  unfold execMonSrcWrite
  try dsimp only
  repeat' first
    | with_reducible first
      | assumption | apply ite_storesOk | refine nextOk_next ?_ | apply nextOk_ite | apply wr_nextOk
    | fail_if_no_progress dsimp only | split

theorem execSpliceCancel_nextOk {src : Source} {s : State} (hok : s.storesOk = true) :
    NextOk (execSpliceCancel src s) := by
  unfold execSpliceCancel
  try dsimp only
  repeat' first
    | with_reducible first
      | assumption | apply ite_storesOk | refine nextOk_next ?_ | apply nextOk_ite | apply wrBytes_nextOk
    | fail_if_no_progress dsimp only | split

theorem execLeaveLimpRestart_nextOk {src : Source} {s : State} (hok : s.storesOk = true) :
    NextOk (execLeaveLimpRestart src s) := by
  unfold execLeaveLimpRestart
  try dsimp only
  repeat' first
    | with_reducible first
      | assumption | apply ite_storesOk | refine nextOk_next ?_ | apply nextOk_ite | apply request_nextOk
    | fail_if_no_progress dsimp only | split

theorem execWhipByte_nextOk {u : Fin 4} {s : State} (hok : s.storesOk = true) : NextOk (execWhipByte u s) := by
  unfold execWhipByte
  try dsimp only
  repeat' first
    | with_reducible first
      | assumption | apply ite_storesOk | refine nextOk_next ?_ | apply nextOk_ite | apply whipClock_storesOk
    | fail_if_no_progress dsimp only | split

theorem execStagePtrWrite_nextOk {src : Source} {v : Word} {s : State} (hok : s.storesOk = true) :
    NextOk (execStagePtrWrite src v s) := by
  unfold execStagePtrWrite
  try dsimp only
  repeat' first
    | with_reducible first
      | assumption | apply ite_storesOk | refine nextOk_next ?_ | apply nextOk_ite | apply wr_nextOk
    | fail_if_no_progress dsimp only | split

theorem execBudgetRegisterWrite_nextOk {src : Source} {walk : Bool} {v : Word} {s : State} (hok : s.storesOk = true) :
    NextOk (execBudgetRegisterWrite src walk v s) := by
  unfold execBudgetRegisterWrite
  try dsimp only
  repeat' first
    | with_reducible first
      | assumption | apply ite_storesOk | refine nextOk_next ?_ | apply nextOk_ite | apply wr_nextOk
    | fail_if_no_progress dsimp only | split

theorem execReelChannelEnable_nextOk {src : Source} {ch : Fin 8} {v : Word} {s : State} (hok : s.storesOk = true) :
    NextOk (execReelChannelEnable src ch v s) := by
  unfold execReelChannelEnable
  try dsimp only
  repeat' first
    | with_reducible first
      | assumption | apply ite_storesOk | refine nextOk_next ?_ | apply nextOk_ite | apply wr_nextOk
    | fail_if_no_progress dsimp only | split

theorem execVddxValid_nextOk {mv : BitVec 16} {s : State} (hok : s.storesOk = true) : NextOk (execVddxValid mv s) := by
  unfold execVddxValid
  try dsimp only
  repeat' first
    | with_reducible first
      | assumption | apply ite_storesOk | refine nextOk_next ?_ | apply nextOk_ite | apply xpSettle_storesOk
      | fail_if_no_progress refine mk_storesOk ?_ rfl rfl rfl rfl rfl
    | fail_if_no_progress dsimp only | split

theorem execDirectTransaction_nextOk {src : Source} {v : Word} {s : State} (hok : s.storesOk = true) :
    NextOk (execDirectTransaction src v s) := by
  unfold execDirectTransaction
  try dsimp only
  repeat' first
    | with_reducible first
      | assumption | apply ite_storesOk | refine nextOk_next ?_ | apply nextOk_ite | apply wr_nextOk
    | fail_if_no_progress dsimp only | split

theorem execHalBufRead_nextOk {src : Source} {s : State} (hok : s.storesOk = true) : NextOk (execHalBufRead src s) := by
  unfold execHalBufRead
  try dsimp only
  repeat' first
    | with_reducible first
      | assumption | apply ite_storesOk | refine nextOk_next ?_ | apply nextOk_ite | apply rd_storesOk
    | fail_if_no_progress dsimp only | split

theorem execRopBufdataAccess_nextOk {src : Source} {w : Option Word} {s : State} (hok : s.storesOk = true) :
    NextOk (execRopBufdataAccess src w s) := by
  unfold execRopBufdataAccess
  try dsimp only
  repeat' first
    | with_reducible first
      | assumption | apply ite_storesOk | refine nextOk_next ?_ | apply nextOk_ite | apply wr_nextOk
      | apply rd_storesOk | fail_if_no_progress refine mk_storesOk ?_ rfl rfl rfl rfl rfl
    | fail_if_no_progress dsimp only | split

theorem execRateWrite_nextOk {src : Source} {v : Word} {s : State} (hok : s.storesOk = true) :
    NextOk (execRateWrite src v s) := by
  unfold execRateWrite
  try dsimp only
  repeat' first
    | with_reducible first
      | assumption | apply ite_storesOk | refine nextOk_next ?_ | apply nextOk_ite | apply wr_nextOk
    | fail_if_no_progress dsimp only | split

theorem writeTogether_storesOk {s : State} {r : Nat} {w : RegWrite} {rivals : List RegWrite} (hok : s.storesOk = true) :
    (writeTogether s r w rivals).storesOk = true := by
  unfold writeTogether
  try dsimp only
  repeat' first
    | with_reducible first
      | assumption | apply ite_storesOk | apply regWrite_storesOk | apply setResult_storesOk
      | refine foldl_storesOk ?_ (fun s x h => ?_) | fail_if_no_progress refine mk_storesOk ?_ rfl rfl rfl rfl rfl
    | fail_if_no_progress dsimp only | split

theorem execRegisterWrite_nextOk {src : Source} {page : BitVec 8} {index : BitVec 6} {v : Word} {s : State} {rivals : List RegWrite} (hok : s.storesOk = true) : NextOk (execRegisterWrite src page index v s rivals) := by
  unfold execRegisterWrite
  try dsimp only
  repeat' first
    | with_reducible first
      | assumption | apply ite_storesOk | refine nextOk_next ?_ | apply nextOk_ite | apply regWrite_storesOk
      | apply writeTogether_storesOk
    | fail_if_no_progress dsimp only | split

theorem execInvalidateVpn_nextOk {src : Source} {vpn : BitVec 12} {s : State} (hok : s.storesOk = true) :
    NextOk (execInvalidateVpn src vpn s) := by
  unfold execInvalidateVpn
  try dsimp only
  repeat' first
    | with_reducible first
      | assumption | apply ite_storesOk | refine nextOk_next ?_ | apply nextOk_ite | apply wr_nextOk
    | fail_if_no_progress dsimp only | split

theorem execWatchdogKick_nextOk {src : Source} {s : State} (hok : s.storesOk = true) :
    NextOk (execWatchdogKick src s) := by
  unfold execWatchdogKick
  try dsimp only
  repeat' first
    | with_reducible first
      | assumption | apply ite_storesOk | refine nextOk_next ?_ | apply nextOk_ite | apply wrBytes_nextOk
    | fail_if_no_progress dsimp only | split

theorem execPinPage_nextOk {src : Source} {vpn : BitVec 12} {s : State} (hok : s.storesOk = true) :
    NextOk (execPinPage src vpn s) := by
  unfold execPinPage
  try dsimp only
  repeat' first
    | with_reducible first
      | assumption | apply ite_storesOk | refine nextOk_next ?_ | apply nextOk_ite | apply wr_nextOk
    | fail_if_no_progress dsimp only | split

theorem execEventTake_nextOk {s : State} (hok : s.storesOk = true) : NextOk (execEventTake s) := by
  unfold execEventTake
  try dsimp only
  repeat' first
    | with_reducible first
      | assumption | apply ite_storesOk | refine nextOk_next ?_ | apply nextOk_ite | apply readEffect_storesOk
    | fail_if_no_progress dsimp only | split | (show ∀ _ _, KeepsTo _ _; intro _ _)

theorem execWakePulse_nextOk {w : Option RegWrite} {s : State} (hok : s.storesOk = true) :
    NextOk (execWakePulse w s) := by
  unfold execWakePulse
  try dsimp only
  repeat' first
    | with_reducible first
      | assumption | apply ite_storesOk | refine nextOk_next ?_ | apply nextOk_ite | apply wr_nextOk
      | apply duePulse_storesOk | fail_if_no_progress refine mk_storesOk ?_ rfl rfl rfl rfl rfl
    | fail_if_no_progress dsimp only | split

theorem execLogEntryWrite_nextOk {s : State} (hok : s.storesOk = true) : NextOk (execLogEntryWrite s) := by
  unfold execLogEntryWrite
  try dsimp only
  repeat' first
    | with_reducible first
      | assumption | apply ite_storesOk | refine nextOk_next ?_ | apply nextOk_ite | apply logStep_storesOk
    | fail_if_no_progress dsimp only | split

theorem execVccMeasurement_nextOk {mv : BitVec 16} {s : State} (hok : s.storesOk = true) :
    NextOk (execVccMeasurement mv s) := by
  unfold execVccMeasurement
  try dsimp only
  repeat' first
    | with_reducible first
      | assumption | apply ite_storesOk | refine nextOk_next ?_ | apply nextOk_ite | apply setF_storesOk
      | apply xpSettle_storesOk | apply pinSettle_storesOk | apply setB_storesOk
      | fail_if_no_progress refine mk_storesOk ?_ rfl rfl rfl rfl rfl
    | fail_if_no_progress dsimp only | split

theorem execModeReqWorkshopRestart_nextOk {src : Source} {s : State} (hok : s.storesOk = true) :
    NextOk (execModeReqWorkshopRestart src s) := by
  unfold execModeReqWorkshopRestart
  try dsimp only
  repeat' first
    | with_reducible first
      | assumption | apply ite_storesOk | refine nextOk_next ?_ | apply nextOk_ite | apply request_nextOk
    | fail_if_no_progress dsimp only | split

theorem execMapL1BaseWrite_nextOk {src : Source} {v : Word} {s : State} (hok : s.storesOk = true) :
    NextOk (execMapL1BaseWrite src v s) := by
  unfold execMapL1BaseWrite
  try dsimp only
  repeat' first
    | with_reducible first
      | assumption | apply ite_storesOk | refine nextOk_next ?_ | apply nextOk_ite | apply wr_nextOk
    | fail_if_no_progress dsimp only | split

theorem execInvalidateAll_nextOk {src : Source} {s : State} (hok : s.storesOk = true) :
    NextOk (execInvalidateAll src s) := by
  unfold execInvalidateAll
  try dsimp only
  repeat' first
    | with_reducible first
      | assumption | apply ite_storesOk | refine nextOk_next ?_ | apply nextOk_ite | apply wrBytes_nextOk
    | fail_if_no_progress dsimp only | split

theorem execRopeXferGo_nextOk {src : Source} {v : Word} {s : State} (hok : s.storesOk = true) :
    NextOk (execRopeXferGo src v s) := by
  unfold execRopeXferGo
  try dsimp only
  repeat' first
    | with_reducible first
      | assumption | apply ite_storesOk | refine nextOk_next ?_ | apply nextOk_ite | apply wr_nextOk
    | fail_if_no_progress dsimp only | split

theorem execLogClear_nextOk {src : Source} {s : State} (hok : s.storesOk = true) : NextOk (execLogClear src s) := by
  unfold execLogClear
  try dsimp only
  repeat' first
    | with_reducible first
      | assumption | apply ite_storesOk | refine nextOk_next ?_ | apply nextOk_ite | apply wr_nextOk
    | fail_if_no_progress dsimp only | split

theorem execHalBufWrite_nextOk {src : Source} {v : Word} {s : State} (hok : s.storesOk = true) :
    NextOk (execHalBufWrite src v s) := by
  unfold execHalBufWrite
  try dsimp only
  repeat' first
    | with_reducible first
      | assumption | apply ite_storesOk | refine nextOk_next ?_ | apply nextOk_ite | apply wr_nextOk
    | fail_if_no_progress dsimp only | split

end Sys2Proof.Machine
end

