-- ==== Sys2Proof/Tests/Slice0.lean ====
section
/-! SUPPORT. Tests: an ill-formed command for each check of WellFormed; for each statement with hypotheses a concrete state
and operands that meet them, clause by clause; and single steps with results worked out from the spec. -/

namespace Sys2Proof.Tests

open Sys2Proof Sys2Proof.Machine Sys2Proof.Machine.Claim

/-! ### Ill-formed commands -/

/-- An exchange of whole words that starts with opcode op. -/
def exch (op : Nat) : Exchange := ⟨[BitVec.ofNat 32 (op * 2 ^ 24)], 0, 300, 0, 400⟩

/-- A tick with this many samples held. -/
def tickIn (hin hout : BitVec 6) : TickIn := ⟨Vector.replicate 8 0, Vector.replicate 8 0, 0, 0, hin, hout, 0, none, none⟩

theorem test_source_codes_outside_1_to_4_are_ill_formed :
    Instr.WellFormed (.referenceQualified 0) = false ∧ Instr.WellFormed (.referenceQualified 5) = false
    ∧ Instr.WellFormed (.sourceLost 0 false) = false ∧ Instr.WellFormed (.referenceRevert 7) = false
    ∧ Instr.WellFormed (.referenceQualified 4) = true := by decide

theorem test_a_tick_holds_at_most_32_samples :
    Instr.WellFormed (.frameTick (tickIn 33 0)) = false ∧ Instr.WellFormed (.frameTick (tickIn 0 33)) = false
    ∧ Instr.WellFormed (.frameTick (tickIn 32 32)) = true := by decide

theorem test_an_exchange_belongs_to_the_row_of_its_opcode :
    Instr.WellFormed (.ropeNop (exch 1)) = false ∧ Instr.WellFormed (.ropeIdent (exch 2)) = false
    ∧ Instr.WellFormed (.ropeStatus (exch 3)) = false ∧ Instr.WellFormed (.ropeRead (exch 4)) = false
    ∧ Instr.WellFormed (.ropeWrite (exch 5)) = false ∧ Instr.WellFormed (.cells (exch 6)) = false
    ∧ Instr.WellFormed (.setFrame (exch 7)) = false ∧ Instr.WellFormed (.time (exch 8)) = false
    ∧ Instr.WellFormed (.leaveLimp (exch 9)) = false ∧ Instr.WellFormed (.imgChunk (exch 10)) = false
    ∧ Instr.WellFormed (.imgState (exch 0)) = false ∧ Instr.WellFormed (.ropeNop (exch 0x20)) = true := by decide

theorem test_an_enumeration_names_a_code_once :
    Instr.WellFormed (.enumeration [⟨3, none, 0⟩, ⟨3, none, 0⟩]) = false ∧ Instr.WellFormed (.enumeration [⟨3, none, 0⟩, ⟨4, none, 0⟩]) = true := by decide

theorem test_a_form_comes_from_words :
    Instr.WellFormed (.movi (.short 0 5 6)) = false ∧ Instr.WellFormed (.add (.reserved 0xCC000000)) = false
    ∧ Instr.WellFormed (.nop (.reserved 0xCA000000)) = false ∧ Instr.WellFormed (.nop (.reserved 0x4C000000)) = false
    ∧ Instr.WellFormed (.nop (.reserved 0xCC000000)) = true ∧ Instr.WellFormed (.add (.short 0 5 6)) = true
    ∧ Instr.WellFormed .quiesceComplete = true := by decide

theorem test_the_bus_has_three_planes :
    Instr.WellFormed (.twbWakeAddress 3) = false ∧ Instr.WellFormed (.twbWakeAddress 2) = true := by decide

/-! ### Words of program memory: the examples of Tables 8.15 to 8.17, and a reserved opcode -/

/-- Short forms: `MPY A0, T:0x010, AUDB0`, `MSU A0, T:0x013, D:0x042`, `MOV D:0x041, D:0x040`, `STA D:0x042, A0`, `NOP`,
`LDA A3, D:0x201`. -/
theorem test_short_words_decode :
    decodeWords 0x44410B10 0 = .mpy (.short 0 0x410 0xB10) ∧ decodeWords 0x4C413042 0 = .msu (.short 0 0x413 0x042)
    ∧ decodeWords 0x04041040 0 = .mov (.short 0 0x041 0x040) ∧ decodeWords 0x54042000 0 = .sta (.short 0 0x042 0x000)
    ∧ decodeWords 0x00000000 0 = .nop (.short 0 0 0) ∧ decodeWords 0x53000201 0 = .lda (.short 3 0x000 0x201)
    ∧ wordsOf 0x44410B10 = 1 := by decide

/-- Long forms: `MPY.Q A0, T:0x020, L:5@100`, `MAC.D A0, D:0x209, T:0x102`, `MSU.D A2, D:0x208, T:0x100` and
`STA.TRK D:0x209, A3`. -/
theorem test_long_words_decode :
    decodeWords 0xA3604002 0x05064420 = .mpy (.long 2 3 false 0 0 false 0x800 2 (BitVec.ofNat 20 (5 * 4096 + 100)) 0x420)
    ∧ decodeWords 0xA5404001 0x00102209 = .mac (.long 2 2 false 0 0 false 0x800 1 0x102 0x209)
    ∧ decodeWords 0xA7404041 0x00100208 = .msu (.long 2 2 false 0 0 false 0x808 1 0x100 0x208)
    ∧ decodeWords 0xAA00C060 0x00209000 = .sta (.long 0 0 false 0 0 true 0x80C 0 0x209 0x000)
    ∧ wordsOf 0xA3604002 = 2 := by decide

/-- Opcodes 0x26 and 0x3F are reserved (R409), and the words of an instruction give it back. -/
theorem test_reserved_opcodes_and_encoding :
    decodeWords 0xCC000007 5 = .nop (.reserved 0xCC000007) ∧ decodeWords 0xFE000000 5 = .nop (.reserved 0xFE000000)
    ∧ encode (.mpy (.short 0 0x410 0xB10)) = some [0x44410B10]
    ∧ encode (.sta (.long 0 0 false 0 0 true 0x80C 0 0x209 0x000)) = some [0xAA00C060, 0x00209000]
    ∧ encode (.nop (.reserved 0xCC000007)) = some [0xCC000007] ∧ encode .quiesceComplete = none
    ∧ decodeTableWord 32 0x44410B10 = none := by decide

/-! ### States -/

/-- The reset state in a mode. -/
def inMode (m : Mode) : State := { State.reset with power := { State.reset.power with mode := m } }

/-- RAISE at a step. -/
def raiseAt (r : RaiseStep) : State := { State.reset with power := { State.reset.power with raise := r } }

/-- RUN with the Lay issuing. -/
def layRuns : State := { inMode .run with lay := { Lay.init with inLay := true } }

/-- RUN with your Slack program issuing. -/
def slackRuns : State :=
  let s := setReg (inMode .run) Reg.laySlackEntry 0x80000100
  { s with lay := { Lay.init with slackOn := true } }

/-- A state with register r holding w. -/
def withReg (r : Nat) (w : Word) (s : State) : State := setReg s r w

/-! ### The machine as a whole -/

theorem witness_StepRunsTheOldestCommand : State.reset.pending = [] := by decide

theorem witness_StepKeepsStoresCanonical : State.reset.storesOk = true ∧ step State.reset = .next State.reset :=
  ⟨by decide, rfl⟩

theorem witness_CanonicalStoresAreEqualWhenTheyReadAlike :
    swf zero [(3, (5 : Byte)), (4, 1)] = true ∧ ∀ a, sget zero [(3, (5 : Byte)), (4, 1)] a = sget zero [(3, (5 : Byte)), (4, 1)] a :=
  ⟨by decide, fun _ => rfl⟩

theorem witness_RegisterFieldReadsBack : (0 ≤ 31 ∧ 31 < 32) ∧ (4 ≤ 7 ∧ 7 < 32 ∧ 3 < 4 ∧ 7 < 8) := by decide

/-! ### Instructions -/

/-- A short form without accesses issues in the Lay and in Slack. -/
theorem issues_lay (aux : BitVec 2) (x y : BitVec 12) :
    Issues layRuns true (.short aux x y) (pure () : Run Unit) () { st := layRuns, stall := 0 } :=
  ⟨by decide, by simp [formLen, isLong], rfl, by decide⟩

theorem issues_slack (aux : BitVec 2) (x y : BitVec 12) :
    Issues slackRuns false (.short aux x y) (pure () : Run Unit) () { st := slackRuns, stall := 0 } :=
  ⟨by decide, by simp [formLen, isLong], rfl, by decide⟩

/-- ADD D5, D6 in the short form. -/
def addShort : Form := .short 0 5 6
/-- MOV D5, #1 in the short form. -/
def movShort : Form := .short 0 5 0xC01

theorem witness_DataInstructionsComplete :
    aluLegal .add addShort = true ∧ aluRoles (aluUnary .add) (aluDest .add) addShort = (some (.deck 5), .deck 5, some (.deck 6))
    ∧ Issues layRuns true addShort (operands true (ctxOf layRuns true) (some (.deck 5)) (.deck 5) (some (.deck 6)))
        (.deck 5, .deck 6, some (.deck 5)) { st := layRuns, stall := 0 }
    ∧ aluLegal .mov movShort = true ∧ aluRoles (aluUnary .mov) (aluDest .mov) movShort = (some (.deck 5), .imm 1 false, none)
    ∧ Issues layRuns true movShort (operands true (ctxOf layRuns true) (some (.deck 5)) (.imm 1 false) none)
        (.imm 1 0x008000, .nothing, some (.deck 5)) { st := layRuns, stall := 0 }
    ∧ aluRoles (aluUnary .cmp) (aluDest .cmp) addShort = (none, .deck 5, some (.deck 6)) :=
  ⟨by decide, by decide, ⟨by decide, by decide, rfl, by decide⟩, by decide, by decide, ⟨by decide, by decide, rfl, by decide⟩, by decide⟩


/-- A short form whose first operand is reserved. -/
def badShort : Form := .short 0 0xFFF 0

theorem witness_IllegalDataInstructionsAreAnnulled :
    aluLegal .add badShort = false ∧ aluLegal .mov (.long 3 0 false 0 0 false 0 0 0 0) = false
    ∧ issuer layRuns = some true ∧ ¬(formLen badShort = 2 ∧ (ctxOf layRuns true).pc = 0x1FFF)
    ∧ Gives (fetchCheck true (formLen badShort)) layRuns () { st := layRuns, stall := 0 }
    ∧ (slotStart { st := layRuns, stall := 0 }).clock.slot < slotLimit (slotStart { st := layRuns, stall := 0 }) true :=
  ⟨by decide, by decide, by decide, by decide, rfl, by decide⟩

theorem witness_ArithmeticAndLogicalResults :
    (23 < 24) ∧ Alu.shr ∈ [Alu.and, .or, .xor, .not, .tst, .shr, .shrl] ∧ Alu.max ∈ [Alu.mov, .min, .max]
    ∧ (aluRes .shr 0x800000 0 24 true).r.getLsbD 23 = true := by decide

theorem test_add_saturates_and_wraps :
    (aluRes .add 0x7FFFFF 1 0 true).r = 0x7FFFFF ∧ (aluRes .add 0x7FFFFF 1 0 false).r = 0x800000
    ∧ (aluRes .sub 0 1 0 false).fx.c = some true ∧ (aluRes .neg 0x800000 0 0 false).r = 0x800000
    ∧ (aluRes .shr 0x800000 0 1 false).r = 0xC00000 ∧ (aluRes .shrl 0x800000 0 1 false).r = 0x400000 := by decide

/-- Modifiers with tracking on. -/
def tracks : Mods := ⟨1, false, false, false, true, false⟩

theorem witness_ResultReachesOnlyItsDestination :
    (15 < 16) ∧ (3 < 4) ∧ tracks.trk = true ∧ (some (Loc.deck 5) = some (.deck 5) ∨ some (Loc.deck 5) = some (.strand 5))
    ∧ { tracks with trk := false }.trk = false ∧ (∀ n, Loc.deck 5 ≠ .reg n) ∧ (∀ r, Loc.deck 5 ≠ .winLow r ∧ Loc.deck 5 ≠ .winHigh r)
    ∧ ∀ k, Loc.deck 5 ≠ .port k := by
  simp [tracks]

/-- LDA A1, D5 and STA D5, A1 in the short form. -/
def ldaShort : Form := .short 1 0 5
def staShort : Form := .short 1 5 0

theorem witness_AccumulatorLoadStoreAndConversions :
    ldaRoles ldaShort = (.acc 1, .deck 5)
    ∧ (formOk ldaShort && isAcc (.acc 1) && opndOk (.deck 5) && decide (fidMults [.deck 5] ≤ 4)) = true
    ∧ Issues layRuns true ldaShort (locOf true (ctxOf layRuns true) .read (.deck 5) 0) (.deck 5) { st := layRuns, stall := 0 }
    ∧ staRoles staShort = (.deck 5, .acc 1) ∧ (formOk staShort && isAcc (.acc 1) && dstOk (.deck 5) && !isAcc (.deck 5)) = true
    ∧ Issues layRuns true staShort (locOf true (ctxOf layRuns true) .write (.deck 5) 0) (.deck 5) { st := layRuns, stall := 0 }
    ∧ (BitVec.ofInt 56 (2 ^ 47) : Acc).toInt ≥ 2 ^ 47 ∧ (BitVec.ofInt 56 (-2 ^ 47 - 1) : Acc).toInt < -(2 : Int) ^ 47
    ∧ (BitVec.ofInt 56 (2 ^ 47 - 1) : Acc).toInt < 2 ^ 47 :=
  ⟨by decide, by decide, ⟨by decide, by decide, rfl, by decide⟩, by decide, by decide, ⟨by decide, by decide, rfl, by decide⟩,
    by decide, by decide, by decide⟩

theorem test_sta_rounds_half_up_and_limits :
    (staConv 0x800000 ⟨1, false, true, true, false, false⟩).1 = 1 ∧ (staConv 0x7FFFFF ⟨1, false, true, true, false, false⟩).1 = 0
    ∧ staConv (BitVec.ofInt 56 (2 ^ 47)) ⟨1, false, false, true, false, false⟩ = (0x7FFFFF, true, true) := by decide

/-- MOVI D5, 0x123456. -/
def moviForm : Form := .long 0 0 false 0 0 false 0x123 0 5 0x456

theorem witness_ClearMoveImmediateAndNopComplete :
    Issues layRuns true (.short 0 0 0xF) (pure () : Run Unit) () { st := layRuns, stall := 0 } ∧ dstOk (fullOpnd 0 5) = true
    ∧ Issues layRuns true moviForm (locOf true (ctxOf layRuns true) .write (fullOpnd 0 5) 0) (.deck 5) { st := layRuns, stall := 0 } :=
  ⟨issues_lay 0 0 0xF, by decide, ⟨by decide, by decide, rfl, by decide⟩⟩

/-- Destination D7, sources D5 and D6. -/
def threeDeck : Form := .long 0 0 false 0 0 false 5 0 7 6

theorem witness_ClampAndLerpComplete :
    isLong threeDeck = true ∧ longRoles threeDeck = (.deck 7, .deck 5, .deck 6)
    ∧ (formOk threeDeck && opndOk (.deck 5) && opndOk (.deck 6) && dstOk (.deck 7)) = true
    ∧ Issues layRuns true threeDeck (operandsBoth true (ctxOf layRuns true) (.deck 7) (.deck 5) (.deck 6))
        (.deck 5, .deck 6, .deck 7) { st := layRuns, stall := 0 }
    ∧ fidMults [.deck 5, .deck 6] ≤ 4 ∧ 1 + fidMults [.deck 5, .deck 6] ≤ 4 :=
  ⟨by decide, by decide, by decide, ⟨by decide, by decide, rfl, by decide⟩, by decide, by decide⟩

theorem witness_ClampLerpAndTableResults : (255 < 256) ∧ (0xFFFFFF : Cell).toInt < 0 ∧ ¬(0 : Cell).toInt < 0 := by decide

theorem test_clamp_prefers_its_upper_limit_and_lerp_moves_half_way :
    (clampRes 5 9 7).r = 7 ∧ (clampRes 5 9 7).fx.c = some true ∧ (clampRes 5 1 7).fx.c = some false
    ∧ (lerpRes 0x100000 0x300000 0x400000 ⟨1, false, false, true, false, false⟩).r = 0x200000 := by decide

/-- TLU D7, from the Table at 0 or the Deck at 0, index D6; SCALE D5, #1; SCALE A1, #1. -/
def tluTable : Form := .long 0 0 false 0 0 false 0x400 0 7 6
def tluDeck : Form := .long 0 0 false 0 0 false 0 0 7 6
def scaleShort : Form := .short 0 5 0xC01
def scaleAcc1 : Form := .short 0 0x804 0xC01

/-- The accesses of TLU and of SCALE, as their statement lists them. -/
def tluRun (o d : Opnd) : Run (Loc × Loc) := do
  let a ← locOf true (ctxOf layRuns true) .read o 0
  let e ← locOf true (ctxOf layRuns true) .write d 0
  return (a, e)
def scaleRun (o ot d : Opnd) : Run (Loc × Loc × Loc) := do
  let a ← locOf true (ctxOf layRuns true) .read o 0
  let b ← locOf true (ctxOf layRuns true) .read ot 0
  let e ← locOf true (ctxOf layRuns true) .write d 0
  return (a, b, e)

/-- The slot after the accesses of these forms starts in the same state. -/
def atStart : Work := { st := layRuns, stall := 0 }

theorem witness_TableLookupAndScaleComplete :
    longRoles tluTable = (.deck 7, .table 0, .deck 6) ∧ tluBase (ctxOf layRuns true) (.table 0) = some (true, 0)
    ∧ longRoles tluDeck = (.deck 7, .deck 0, .deck 6) ∧ tluBase (ctxOf layRuns true) (.deck 0) = some (false, 0)
    ∧ (formOk tluTable && opndOk (.deck 6) && dstOk (.deck 7) && decide (1 + fidMults [.deck 6] ≤ 4)) = true
    ∧ (0 + 256 < 8192 ∧ 0 + 256 < 4096) ∧ layRuns.mem.ecc = []
    ∧ Issues layRuns true tluTable (tluRun (.deck 6) (.deck 7)) (.deck 6, .deck 7) { st := layRuns, stall := 0 }
    ∧ Issues layRuns true tluDeck (tluRun (.deck 6) (.deck 7)) (.deck 6, .deck 7) { st := layRuns, stall := 0 }
    ∧ scaleRoles scaleShort = (.deck 5, .deck 5, .imm 1 false) ∧ scaleRoles scaleAcc1 = (.acc 1, .acc 1, .imm 1 false)
    ∧ Issues layRuns true scaleShort (scaleRun (.deck 5) (.imm 1 false) (.deck 5)) (.deck 5, .imm 1 0x008000, .deck 5) { st := layRuns, stall := 0 }
    ∧ Issues layRuns true scaleAcc1 (scaleRun (.acc 1) (.imm 1 false) (.acc 1)) (.acc 1, .imm 1 0x008000, .acc 1) { st := layRuns, stall := 0 }
    ∧ intValue (.imm 1 0x008000) (peekLoc (slotStart atStart) true (modsOf (ctxOf layRuns true) scaleShort) (.imm 1 0x008000)) = 1 :=
  ⟨by decide, by decide, by decide, by decide, by decide, by decide, rfl, ⟨by decide, by decide, rfl, by decide⟩,
    ⟨by decide, by decide, rfl, by decide⟩, by decide, by decide,
    ⟨by decide, by decide, rfl, by decide⟩, ⟨by decide, by decide, rfl, by decide⟩, by decide⟩

/-- MPY A1, D5, D6; and two lanes on A0, with D5 against the run from D6. -/
def mpyShort : Form := .short 1 5 6
def mpyWide : Form := .long 1 2 false 0 0 false 0x800 0 5 6

/-- A multiply in flight with two slots to go. -/
def flying : State := { layRuns with lay := { layRuns.lay with flight := [⟨true, 2, .add, 0, [5], true⟩] } }

/-- The lanes of runs of Deck cells, while no cell has an error. -/
theorem runLocs_of_deck (n : Nat) : ∀ l k : Nat,
    (runLocs true (ctxOf layRuns true) (.deck n) l k).run.run atStart = (.ok ((List.range' k l).map (fun j => Loc.deck (n + j))), atStart)
  | 0, _ => rfl
  | l + 1, k => by
    have h : (locOf true (ctxOf layRuns true) .read (.deck n) k).run.run atStart = (.ok (.deck (n + k)), atStart) := rfl
    show (do let a ← locOf true (ctxOf layRuns true) .read (.deck n) k
             let ls ← runLocs true (ctxOf layRuns true) (.deck n) l (k + 1)
             pure (a :: ls) : Run (List Loc)).run.run atStart = _
    rw [run_bind_ok h, run_bind_ok (runLocs_of_deck n l (k + 1))]; rfl

theorem issues_lanes {f : Form} {n m a b : Nat} (h : formLen f = 1 ∨ formLen f = 2) :
    Issues layRuns true f (lanes true (ctxOf layRuns true) (.deck n) (.deck m) a b)
      ((List.range' 0 a).map (fun j => Loc.deck (n + j)), (List.range' 0 b).map (fun j => Loc.deck (m + j))) atStart := by
  have e : (fetchCheck true (formLen f)).run.run atStart = (.ok (), atStart) := by rcases h with h | h <;> rw [h] <;> rfl
  refine ⟨by decide, fun x => absurd x.2 (by decide), (run_bind_ok e).trans ?_, by decide⟩
  unfold lanes
  rw [run_bind_ok (runLocs_of_deck n a 0), run_bind_ok (runLocs_of_deck m b 0)]; rfl

theorem witness_MultipliesEnterFlightAndComplete :
    mulRoles mpyShort = (.acc 1, .deck 5, .deck 6) ∧ lanesDst 1 1 = true
    ∧ Issues layRuns true mpyShort (lanes true (ctxOf layRuns true) (.deck 5) (.deck 6) 1 1) ([.deck 5], [.deck 6]) { st := layRuns, stall := 0 }
    ∧ mulRoles mpyWide = (.acc 0, .deck 5, .deck 6) ∧ (modsOf (ctxOf layRuns true) mpyWide).lanes = 2 ∧ lanesDst 2 0 = true
    ∧ runOk (ctxOf layRuns true) 2 (.deck 6) = true
    ∧ Issues layRuns true mpyWide (lanes true (ctxOf layRuns true) (.deck 5) (.deck 6) 1 2) ([.deck 5], [.deck 6, .deck 7]) { st := layRuns, stall := 0 }
    ∧ flying.lay.flight = [⟨true, 2, .add, 0, [5], true⟩] ∧ (1 ≤ 2 ∧ 2 ≤ 2) ∧ flying.clock.slot + 2 ≤ flying.clock.frameLen :=
  ⟨by decide, by decide, issues_lanes (.inl rfl), by decide, by decide, by decide, by decide, issues_lanes (.inr rfl), by decide,
    by decide, Nat.le_of_ble_eq_true rfl⟩

/-- A Strand RAM store and a corrected word wait. -/
def storeWaits : State := { layRuns with
  lay := { layRuns.lay with store := some (131071, 7) }
  mem := { layRuns.mem with ecc := [⟨.deck, 5, false, true⟩] } }

theorem witness_WriteBacksComplete :
    storeWaits.lay.store = some (131071, 7)
    ∧ storeWaits.mem.ecc.find? (fun e => e.found && !e.double) = some ⟨.deck, 5, false, true⟩ := by decide

/-- The Lay issues from a context. -/
def layWith (c : Ctx) : State := { layRuns with lay := { layRuns.lay with lay := c } }

def fullCoil : Ctx := { Ctx.init with coil := [1, 2, 3, 4, 5, 6, 7, 8] }
def inDelay : Ctx := { Ctx.init with branch := some ⟨0, 9, true, false, true⟩ }
def trapping : State := layWith fullCoil
def wrapping : State := withReg Reg.layCoilCfg 0 (layWith fullCoil)

theorem witness_BranchInstructionsComplete :
    Issues layRuns true (.short 0 0 9) (pure () : Run Unit) () { st := layRuns, stall := 0 } ∧ (ctxOf layRuns true).branch = none
    ∧ (ctxOf layRuns true).coil = []
    ∧ Issues wrapping true (.short 0 0 9) (pure () : Run Unit) () { st := wrapping, stall := 0 }
    ∧ getB wrapping Reg.layCoilCfg 0 = false
    ∧ Issues trapping true (.short 0 0 9) (pure () : Run Unit) () { st := trapping, stall := 0 }
    ∧ (ctxOf trapping true).coil.length = 8 ∧ getB trapping Reg.layCoilCfg 0 = true
    ∧ Issues (layWith inDelay) true (.short 0 0 9) (pure () : Run Unit) () { st := layWith inDelay, stall := 0 }
    ∧ (ctxOf (layWith inDelay) true).branch ≠ none :=
  ⟨issues_lay 0 0 9, by decide, by decide, ⟨by decide, by decide, rfl, by decide⟩, by decide, ⟨by decide, by decide, rfl, by decide⟩,
    by decide, by decide, ⟨by decide, by decide, rfl, by decide⟩, by decide⟩

/-- The last instruction of a body, with iterations left and without; the same in a delay slot. -/
def bodyEnds (left : Nat) : Ctx := { Ctx.init with pc := 20, hitch := [⟨10, 20, left⟩] }

theorem witness_ConditionsAndControlFlowAdvance :
    (Ctx.init.branch = none ∧ Ctx.init.hitch = []) ∧ (inDelay.branch ≠ none ∧ inDelay.hitch = [])
    ∧ occupies (bodyEnds 2).pc 1 20 = true ∧ occupies (bodyEnds 2).pc 1 21 = false ∧ (1 ≤ 1 ∧ ¬1 > 1 ∧ 2 > 1)
    ∧ occupies (bodyEnds 2).pc 2 20 = true ∧ occupies (19 : PAddr) 2 20 = true ∧ occupies (18 : PAddr) 2 20 = false
    ∧ (bodyEnds 2).hitch = [⟨10, 20, 2⟩] ∧ { Ctx.init with shadow := some ⟨0xF, 0⟩ }.shadow = some ⟨0xF, 0⟩ := by decide

/-- Contexts with 1 and 3 loops open around the pc. -/
def oneLoop : Ctx := { Ctx.init with hitch := [⟨0, 5, 2⟩] }
def threeLoops : Ctx := { Ctx.init with hitch := [⟨0, 5, 2⟩, ⟨0, 6, 2⟩, ⟨0, 7, 2⟩] }

theorem witness_ModeLoopEndAndYieldComplete :
    ¬((0x0FF : BitVec 12).getLsbD 8 = true ∧ (0x0FF : BitVec 12).toNat / 8 % 4 = 3)
    ∧ ((0x118 : BitVec 12).getLsbD 8 = true ∧ (0x118 : BitVec 12).toNat / 8 % 4 = 3)
    ∧ Issues layRuns true (.short 0 4 7) (pure () : Run Unit) () { st := layRuns, stall := 0 } ∧ ((4 : PAddr).toNat ≥ ((ctxOf layRuns true).pc + 1).toNat)
    ∧ ((0 : PAddr).toNat < ((ctxOf layRuns true).pc + 1).toNat)
    ∧ Issues (layWith oneLoop) true (.short 0 4 7) (pure () : Run Unit) () { st := layWith oneLoop, stall := 0 } ∧ (5 ≤ 5 ∧ 6 > 5)
    ∧ Issues (layWith threeLoops) true (.short 0 4 7) (pure () : Run Unit) () { st := layWith threeLoops, stall := 0 } ∧ threeLoops.hitch.length ≥ 3
    ∧ Issues layRuns true (.short 2 4 0xC03) (locOf true (ctxOf layRuns true) .read (compact 0xC03) 0) (.imm 3 0x018000) { st := layRuns, stall := 0 }
    ∧ opndOk (compact 0xC03) = true ∧ loopCount (.imm 3 0x018000) 0 = 3 ∧ loopCount (.imm 0 0) 0 < 1 ∧ loopCount (.deck 5) 0x1001 > 4096
    ∧ layRuns.lay.lay.branch = none ∧ layRuns.lay.stepping = false
    ∧ Issues slackRuns false (.short 0 0 0) (pure () : Run Unit) () { st := slackRuns, stall := 0 } :=
  ⟨by decide, by decide, issues_lay 0 4 7, by decide, by decide, ⟨by decide, by decide, rfl, by decide⟩, by decide,
    ⟨by decide, by decide, rfl, by decide⟩, by decide, ⟨by decide, by decide, rfl, by decide⟩, by decide, by decide, by decide,
    by decide, by decide, by decide, issues_slack 0 0 0⟩

/-- EVT 3, D5 and SPLC 0 to 2, D5. -/
def actForm (n : BitVec 12) : Form := .long 1 0 false 0 0 false n 0 5 0

theorem witness_SpliceAndEventInstructionsComplete :
    isLong (actForm 3) = true ∧ longFp (actForm 3) = 1 ∧ fullOf (actForm 3) = .deck 5 ∧ fnNumber (actForm 3) = 3
    ∧ fnNumber (actForm 0) = 0 ∧ fnNumber (actForm 1) = 1 ∧ fnNumber (actForm 2) = 2
    ∧ (formOk (actForm 3) && opndOk (.deck 5) && decide (fidMults [.deck 5] ≤ 4)) = true
    ∧ Issues layRuns true (actForm 3) (locOf true (ctxOf layRuns true) .read (.deck 5) 0) (.deck 5) { st := layRuns, stall := 0 } :=
  ⟨by decide, by decide, by decide, by decide, by decide, by decide, by decide, by decide, ⟨by decide, by decide, rfl, by decide⟩⟩

theorem witness_AnnulledInstructionHasNoEffect :
    getB (passSlots layRuns 1) Reg.cltLogHead 22 = false ∧ (logStep layRuns).cleat.queue.length < 4 := by decide

/-! ### The strand map -/

/-- A two-level map from Strand RAM: page 0 is frame 3. -/
def mapped : State :=
  let s := withReg Reg.mapL1Base 0x80000100 layRuns
  { s with
    mem := { s.mem with strand := [(0x100, 0x800000), (0x101, 0x200), (0x200, 0x300003)] }
    map := { s.map with allowance := 8 } }

/-- The X-port works and device 0 is the NOR flash of chapter 12's worked example. -/
def xpWorks (s : State) : State :=
  let s := withReg Reg.xpTiming 0x14000100 (withReg (Reg.xpPhase 0) 0xEE6DA860 (withReg Reg.xpCfg 2 s))
  { withReg (Reg.xpDevSize 0) 0x40000016 s with
    power := { s.power with xpValid := true }, xp := { s.xp with io := 1 } }

/-- Page 1 is an external page, in the cache, and a read of it is in time; the Lay's allowance is just enough. -/
def extMapped : State :=
  let s := xpWorks (withReg Reg.mapL1Base 0x80000100 layRuns)
  { s with map := { s.map with allowance := 40, cache := vset s.map.cache 0 (some ⟨1, .ext true 0 1 5, false, 0⟩) } }

/-- Accesses that answer x give it, whatever state they leave. -/
theorem gives_of {α : Type} {r : Run α} {s : State} {x : α} (h : (r.run.run { st := s, stall := 0 }).1 = .ok x) : ∃ w, Gives r s x w :=
  ⟨_, Prod.ext h rfl⟩

/-- The accesses of an external read, as its statement lists them. -/
def extRun : Run (Page × Loc) := do
  let p ← translate true 4100
  let l ← pageLoc true .read p 4100
  return (p, l)

theorem phaseCycles_le {a b lanes : Nat} {ddr : Bool} (h : a ≤ b) : phaseCycles a lanes ddr ≤ phaseCycles b lanes ddr := by
  unfold phaseCycles; exact Nat.div_le_div_right (by omega)

/-- The page is translated, and the Lay is charged for its read. -/
def translated : Work := ((translate true 4100).run.run { st := extMapped, stall := 0 }).2
def charged : State := chargeWalk translated.st 40

/-- A read of at most 12 bytes of the flash of the worked example takes at most 40 core clocks by itself. -/
theorem read_in_time : layLate (readOwn charged 0 1 12).2 0 (readOwn charged 0 1 12).1 = (false, (readOwn charged 0 1 12).2) := by
  have h : ∀ n b, n ≤ 12 → ¬2 * transCycles 0xEE6DA860 (false && b) n > 40 := by
    intro n b hn
    have e : transCycles 0xEE6DA860 (false && b) n = 9 + phaseCycles (8 * n) 2 true + 1 := by
      unfold transCycles
      exact congrArg (fun k => k + phaseCycles (8 * n) 2 true + 1) (show _ = 9 from rfl)
    have := phaseCycles_le (lanes := 2) (ddr := true) (show 8 * n ≤ 96 by omega)
    have z : phaseCycles 96 2 true = 6 := rfl
    omega
  have e : (readOwn charged 0 1 12).1 = 2 * transCycles 0xEE6DA860 (false && Config.latencyDouble charged.free)
      (max 1 (min 12 (Config.readBytes charged.free))) := rfl
  unfold layLate; rw [e, if_neg (h _ _ (by omega)), if_pos (by decide)]

/-- The external read before the port's. -/
def beforeRead : Work := { translated with pages := [(0, 5)] }

theorem gives_extRun : ∃ w, Gives extRun extMapped (.ext true 0 1 5, .ext 0 20484 1) w := by
  have room : 40 ≤ stallRoom beforeRead.st true beforeRead.stall := Nat.le_of_ble_eq_true rfl
  have h := run_layExtRead (w := beforeRead) (d := 0) (lo := 1) (hi := 12) (late := false)
    (s := (readOwn charged 0 1 12).2) room read_in_time
  have r : (extRead true 0 20480 1 12 4100).run.run beforeRead = (.ok (), _) := run_bind_ok h
  have l := run_pageLoc_read (lay := true) (wr := true) (dev := 0) (pack := 1) (page := 5) (va := 4100)
    (w := translated) (by decide) rfl (fun _ => by decide) r
  have y : (translate true 4100).run.run { st := extMapped, stall := 0 } = (.ok (.ext true 0 1 5), translated) := Prod.ext rfl rfl
  exact ⟨_, (run_bind_ok y).trans (run_bind_ok l)⟩

theorem witness_MapWalkTranslates :
    issuer layRuns = some true ∧ layRuns.map.pin = none ∧ (0x01FFFF : BitVec 24).toNat < 0xFE0000
    ∧ Gives (translate true 0x01FFFF) layRuns (.frame true 31) { st := layRuns, stall := 0 } ∧ getB layRuns Reg.mapL1Base 31 = false
    ∧ (∃ w, Gives (translate true 4095) mapped (.frame true 3) w) ∧ issuer mapped = some true ∧ getB mapped Reg.mapL1Base 31 = true
    ∧ getB mapped Reg.mapL1Base 30 = false ∧ getB mapped Reg.mapL1Base 28 = false ∧ cacheFind mapped.map 0 = none ∧ mapped.mem.ecc = []
    ∧ 8 ≤ mapped.map.allowance ∧ mapped.clock.slot + 8 ≤ fence mapped ∧ getF mapped Reg.mapL1Base 23 0 = 0x100
    ∧ (strandCell mapped 0x100 = BitVec.ofNat 24 (4 * 2 ^ 21) ∧ strandCell mapped 0x101 = BitVec.ofNat 24 0x200)
    ∧ strandCell mapped 0x200 = BitVec.ofNat 24 (2 ^ 21 + 2 ^ 20 + 3) :=
  ⟨by decide, by decide, by decide, rfl, by decide, ⟨_, rfl⟩, by decide, by decide, by decide, by decide, by decide, by decide,
    by decide, by decide, by decide, by decide, by decide⟩

theorem witness_MapWalkFaultsAndExternalReads :
    issuer layRuns = some true ∧ layRuns.map.pin = none ∧ (0x020000 : BitVec 24).toNat ≥ 0x020000 ∧ (0xFDFFFF : BitVec 24).toNat < 0xFE0000
    ∧ getB layRuns Reg.mapL1Base 31 = false ∧ getB layRuns Reg.cltLogHead 22 = false ∧ layRuns.cleat.queue.length < 4
    ∧ (∀ wr dev pack page, Page.frame true 31 ≠ .ext wr dev pack page)
    ∧ issuer extMapped = some true ∧ ∃ w, Gives extRun extMapped (.ext true 0 1 5, .ext 0 20484 1) w :=
  ⟨by decide, by decide, by decide, by decide, by decide, by decide, by decide, by simp, by decide, gives_extRun⟩

/-! ### Start, restart, LIMP and mode requests -/

/-- Every conversion of every strap reads 3, and TEST is low or high. -/
def boot (test : Bool) : Boot := ⟨Vector.replicate 7 (Vector.replicate 3 (Vector.replicate 16 3)), test, 0⟩

theorem witness_LimpEntries :
    NoSinkWrites State.reset ∧ Mode.raise ∈ [Mode.raise, .run, .holdover, .workshop, .quiesce]
    ∧ Mode.limp ∈ [Mode.off, .dormant, .standby, .limp] ∧ (raiseAt .reference).power.raise = .reference
    ∧ (raiseAt .pll).power.mode = .raise ∧ (raiseAt .pll).power.raise = .pll :=
  ⟨rfl, by decide, by decide, rfl, rfl, rfl⟩

theorem witness_ColdStartAndPowerLoss :
    (boot false).test = false ∧ (inMode .run).power.mode ≠ .off ∧ (boot true).test = true ∧ (inMode .off).power.mode = .off
    ∧ NoSinkWrites State.reset := ⟨rfl, by decide, rfl, rfl, rfl⟩

/-- FAILED at 2 with the start window open, and K at its reset value 3: the next failure is at the limit. -/
def failedTwice : State :=
  let s := withReg Reg.sysStartCount 2 (raiseAt .ropeWait)
  { s with power := { s.power with windowOpen := true } }

theorem witness_FailedStarts :
    (raiseAt .ropeWait).power.raise = .ropeWait ∧ StrapsGood (raiseAt .ropeWait) ∧ NoSinkWrites (raiseAt .ropeWait)
    ∧ getF (raiseAt .ropeWait) Reg.sysStartCount 3 0 = 0 ∧ ¬(0 + 1 ≥ getF (raiseAt .ropeWait) Reg.cltLadderCfg 15 12)
    ∧ StrapsGood failedTwice ∧ failedTwice.power.windowOpen = true ∧ 2 + 1 ≥ getF failedTwice Reg.cltLadderCfg 15 12
    ∧ (inMode .holdover).power.mode = .holdover ∧ StrapsGood (inMode .holdover) ∧ (inMode .run).power.mode ≠ .holdover
    ∧ { (inMode .run).cleat with wdogOn := true }.wdogOn = true ∧ (inMode .run).cleat.wdogOn = false := by
  unfold StrapsGood NoSinkWrites; decide

/-- A state whose MS strap was read as a code. -/
def withMs (code : BitVec 4) (s : State) : State := { s with straps := ⟨vset s.straps.pins 0 ⟨false, 0, 0, code⟩⟩ }

theorem witness_WindowPllLockAndStartAttempt :
    failedTwice.power.windowOpen = true ∧ (inMode .run).power.windowOpen = false ∧ (raiseAt .pll).power.raise = .pll
    ∧ (raiseAt .attempt).power.raise = .attempt ∧ (raiseAt .attempt).power.mode = .raise
    ∧ role (withMs 14 (raiseAt .attempt)) = .workshop ∧ role (withMs 0 (raiseAt .attempt)) ≠ .workshop
    ∧ bootSources (msCode (withMs 0 (raiseAt .attempt))) = [.rom] ∧ bootSources (msCode (withMs 7 (raiseAt .attempt))) = [.rope]
    ∧ (raiseAt .attempt).power.toWorkshop = false := by decide

theorem witness_RunningModeRequests :
    Requests (inMode .run) .twb ∧ Requests (inMode .holdover) .twb ∧ Requests (inMode .workshop) .twb
    ∧ getB (withReg Reg.sysStatus 0x100 (inMode .workshop)) Reg.sysStatus 8 = true ∧ getB (inMode .workshop) Reg.sysStatus 8 = false
    ∧ loadedFits (withReg Reg.sysStatus 0x100 (inMode .workshop)) = true :=
  ⟨⟨by decide, rfl, rfl, rfl⟩, ⟨by decide, rfl, rfl, rfl⟩, ⟨by decide, rfl, rfl, rfl⟩, by decide, by decide, by decide⟩

theorem witness_WarmRestartRequests :
    NoSinkWrites (inMode .workshop) ∧ StrapsGood (inMode .workshop) ∧ (inMode .workshop).power.factory = false
    ∧ Requests (inMode .workshop) .rope ∧ StrapsGood (inMode .run) :=
  ⟨rfl, by unfold StrapsGood; decide, rfl, ⟨by decide, rfl, rfl, rfl⟩, by unfold StrapsGood; decide⟩

/-- QUIESCE that is complete. -/
def quiet : State := { inMode .quiesce with clock := { State.reset.clock with quietDue := true } }

theorem witness_StandbyRequestsAndQuiesceEnd :
    Requests (inMode .standby) .twb ∧ (inMode .standby).power.heldWake = none ∧ quiet.clock.quietDue = true
    ∧ NoSinkWrites quiet ∧ quiet.power.sleepTarget ∈ [Mode.dormant, .standby] ∧ (inMode .run).clock.quietDue = false :=
  ⟨⟨by decide, rfl, rfl, rfl⟩, rfl, rfl, rfl, by decide, rfl⟩

/-- LIMP whose supply is low. -/
def limpLow : State := { inMode .limp with power := { (inMode .limp).power with vccLow := true } }

theorem witness_LeaveLimpRequests :
    Requests limpLow .twb ∧ limpPersists limpLow 3 = true ∧ limpPersists limpLow 7 = true ∧ limpPersists limpLow 1 = true
    ∧ Requests (inMode .limp) .twb ∧ limpPersists (inMode .limp) 3 = false ∧ limpPersists (inMode .limp) 7 = false
    ∧ limpPersists (inMode .limp) 1 = false ∧ StrapsGood (inMode .limp) ∧ (inMode .limp).power.heldWake = none :=
  ⟨⟨by decide, rfl, rfl, rfl⟩, by decide, by decide, by decide, ⟨by decide, rfl, rfl, rfl⟩, by decide, by decide, by decide,
    by unfold StrapsGood; decide, rfl⟩

/-! ### Frames and references -/

/-- RAISE before its first frame tick; a mode in which frames tick; a mode with the Lay tainted. -/
def firstTick : State :=
  let s := raiseAt .firstFrame
  { s with clk := { s.clk with locked := true } }

def ticking (m : Mode) : State := { inMode m with clk := { State.reset.clk with locked := true } }

theorem settled_ticking (m : Mode) : Settled (ticking m) :=
  ⟨rfl, rfl, rfl, show ∀ e, e < 22 → vget State.reset.events.age e 0 < 64 by decide⟩

theorem plain_run : PlainTick (ticking .run) := ⟨by decide, settled_ticking _, rfl, rfl, rfl, rfl⟩
theorem plain_workshop : PlainTick (ticking .workshop) := ⟨by decide, settled_ticking _, rfl, rfl, rfl, rfl⟩
theorem plain_holdover : PlainTick (ticking .holdover) := ⟨by decide, settled_ticking _, rfl, rfl, rfl, rfl⟩

theorem witness_FrameTickBeginsTheFrame :
    PlainTick (ticking .run) ∧ PlainTick firstTick ∧ firstTick.power.raise = .firstFrame ∧ (ticking .run).rom.code = none
    ∧ Settled (inMode .off) ∧ frameTicks (inMode .off) = false :=
  ⟨plain_run, ⟨by decide, ⟨rfl, rfl, rfl, by decide⟩, rfl, rfl, rfl, rfl⟩, rfl, rfl, ⟨rfl, rfl, rfl, by decide⟩, by decide⟩

/-- A line that steps back from its head 0, in an enabled map. -/
def oneLine : State := { ticking .run with mem := { State.reset.mem with line := [(1, 0xA00000), (2, 0)] } }

/-- Entry to HOLDOVER is due. -/
def holdDue : State := { ticking .run with clock := { State.reset.clock with holdDue := true } }

theorem witness_TaintLadderAndFrameLength :
    PlainTick (ticking .run) ∧ (ticking .run).clock.startDue = false ∧ (ticking .run).clk.aligning = false
    ∧ endsTainted { ticking .run with lay := { Lay.init with tainted := true } } = true ∧ endsTainted (ticking .run) = false
    ∧ holdDue.clock.holdDue = true ∧ (ticking .run).clock.holdDue = false
    ∧ (ticking .run).clock.nudgeEdge = none ∧ { (ticking .run).clock with nudgeEdge := some 3 }.nudgeEdge ≠ none
    ∧ (lineCell oneLine 0 1).msb = true ∧ getB oneLine Reg.mapLineCtrl 0 = false ∧ cfld (lineCell oneLine 0 1) 21 20 = 2
    ∧ (lineCell oneLine 255 1).msb = false :=
  ⟨plain_run, by decide, by decide, by decide, by decide, by decide, by decide, by decide, by decide, by decide, by decide, by decide, by decide⟩

/-- A request waits in a mode. -/
def asked (m target : Mode) : State :=
  { ticking m with power := { (ticking m).power with pendingReq := some target } }

theorem witness_ModeChangesAtTheTick :
    PlainTick { asked .holdover .run with power := { (asked .holdover .run).power with pendingReq := none } }
    ∧ (asked .holdover .run).power.pendingReq = some .run ∧ endsTainted (asked .holdover .run) = false
    ∧ PlainTick { asked .run .workshop with power := { (asked .run .workshop).power with pendingReq := none } }
    ∧ (asked .run .workshop).power.pendingReq = some .workshop
    ∧ PlainTick { asked .workshop .run with power := { (asked .workshop .run).power with pendingReq := none } }
    ∧ getB (asked .workshop .run) Reg.sysStatus 8 = false ∧ getB (withReg Reg.sysStatus 0x100 (asked .workshop .run)) Reg.sysStatus 8 = true :=
  ⟨plain_holdover, rfl, by decide, plain_run, rfl, plain_workshop, by decide, by decide⟩

/-- A state in which the light tick is due; a worker whose frames follow a manager, in WORKSHOP. -/
def lightDue : State := { ticking .run with clock := { State.reset.clock with lightDue := true } }
def follower : State := withReg Reg.ropCfg 0x10000000 (ticking .workshop)

theorem witness_FrameEventsComplete :
    layRuns.lay.inLay = true ∧ layRuns.lay.stepping = false ∧ layRuns.cleat.queue = [] ∧ getB layRuns Reg.cltLogHead 22 = false
    ∧ (∀ u, u < 4 → (whipUnit layRuns u).queue = []) ∧ backfillMeets layRuns = false ∧ { layRuns.lay with stepping := true }.stepping = true
    ∧ (inMode .run).lay.inLay = false ∧ lightDue.clock.holdDue = false ∧ lightDue.clock.lightDue = true ∧ lightDue.rom.code = none
    ∧ lightDue.light.step = none ∧ lightDue.light.handover = none ∧ (inMode .run).clock.lightDue = false
    ∧ getF follower Reg.ropCfg 29 28 = 1 ∧ frameTicks follower = true ∧ follower.clock.startDue = false
    ∧ getF (ticking .run) Reg.ropCfg 29 28 ≠ 1 := by decide

/-- Sources 1 and 2 are in the order, and source 2 is qualified or both are. -/
def refs (qual : BitVec 5) (primary : Nat) : State :=
  let s := withReg Reg.clkSrcOrder 0x21 (ticking .run)
  { s with clk := { s.clk with qual := qual, primary := primary } }

/-- Source c has passed as many windows as a revert needs. -/
def passing (c : Nat) : State :=
  let s := refs 6 2
  { s with clk := { s.clk with passes := vset s.clk.passes c (getF s Reg.clkMonCfg 23 16) } }

theorem witness_ReferenceChoice :
    watchesReferences Mode.run = true ∧ watchesReferences Mode.off = false ∧ (refs 2 1).power.factory = false
    ∧ (1 ≤ (4 : BitVec 3).toNat ∧ (4 : BitVec 3).toNat ≤ 4) ∧ srcOrder (refs 6 1) = [1, 2]
    ∧ (srcOrder (refs 6 1)).find? (qualOr (refs 6 1) 2) = some 1
    ∧ qualified (refs 6 1) 1 = true ∧ qualified (refs 2 1) 2 = false ∧ pllRuns (refs 6 1) = true
    ∧ candidatesAfter (refs 6 1) 1 = [2] ∧ candidatesAfter (refs 2 1) 1 = []
    ∧ (1 ∈ (srcOrder (refs 6 2)).takeWhile (· != (refs 6 2).clk.primary)) ∧ (refs 6 2).clk.primary ∈ srcOrder (refs 6 2)
    ∧ getB (refs 6 2) Reg.clkMonCfg 1 = true ∧ getB (withReg Reg.clkMonCfg 0 (refs 6 2)) Reg.clkMonCfg 1 = false
    ∧ vget (passing 1).clk.passes 1 0 ≥ getF (passing 1) Reg.clkMonCfg 23 16
    ∧ vget (refs 6 2).clk.passes 1 0 < getF (passing 1) Reg.clkMonCfg 23 16 ∧ (refs 6 1).clk.secondary = 0
    ∧ { (refs 6 0).clk with hold := true }.hold = true ∧ (refs 6 0).clk.primary = 0 := by decide

/-- A pair of sources after seven windows, with a deviation at which the decision is DISAGREE. -/
def pair : State :=
  let s := refs 6 1
  { s with clk := { s.clk with secondary := 2, windows := 7, devs := List.replicate 7 20001 } }

/-- A slew under way to FSYNC; an alignment with one core clock to go. -/
def slewing : State :=
  let s := refs 6 4
  { s with clk := { s.clk with slewing := true } }
def aligning (left : Int) : State :=
  let s := ticking .run
  { s with clk := { s.clk with aligning := true, alignLeft := left } }

theorem witness_MonitorDecisionsSlewAndAlignment :
    watchesReferences pair.power.mode = true ∧ pair.clk.primary ≠ 0 ∧ pair.clk.secondary ≠ 0 ∧ pair.clk.primary ≠ pair.clk.secondary
    ∧ getB pair Reg.clkMonCfg 0 = false ∧ pair.clk.windows + 1 ≥ 8 ∧ (refs 6 1).clk.windows + 1 < 8 ∧ (refs 6 1).clk.secondary = 0
    ∧ watchesReferences (refs 6 1).power.mode = true ∧ (refs 6 1).clk.primary ≠ 0
    ∧ (1 ∈ (srcOrder (refs 6 2)).takeWhile (· != (refs 6 2).clk.primary) ∧ qualified (refs 6 2) 1 = true ∧ (-2500 : Int).natAbs ≤ 2500)
    ∧ ((20001 :: pair.clk.devs).take 8).foldl (· + ·) 0 % 8 = 0 ∧ pair.clk.decision = 0
    ∧ slewing.clk.slewing = true ∧ slewing.clk.primary = 4 ∧ (refs 6 1).clk.slewing = false
    ∧ (aligning 2).clk.alignLeft.natAbs > 1 ∧ (aligning (-1)).clk.alignLeft.natAbs ≤ 1 := by decide

theorem witness_alignment_ticks : PlainTick (aligning 2) ∧ (aligning 2).clk.aligning = true :=
  ⟨⟨by decide, ⟨rfl, rfl, rfl, by decide⟩, rfl, rfl, rfl, rfl⟩, rfl⟩

/-! ### Register writes and splices -/

theorem open_of {s : State} {src : Source} {r : Nat} (h : (reaches s src r && !denied s src r) = true) : Open s src r := by
  simp only [Bool.and_eq_true, Bool.not_eq_true'] at h; exact ⟨h.1, h.2⟩

/-- RUN with every source denied. -/
def denies : State := withReg Reg.sysOwner 0xF (inMode .run)

theorem witness_RegisterWrites :
    Open (inMode .run) .slack (64 * 0x04) ∧ Open (inMode .run) .slack (64 * 0x17 + 63) ∧ Open (inMode .run) .slack Reg.sysEvents
    ∧ regExists (64 * 255 + 63) = false ∧ reaches (inMode .off) .slack Reg.sysEvents = false
    ∧ regExists Reg.sysEvents = true ∧ reaches denies .twb Reg.sysEvents = true ∧ denied denies .twb Reg.sysEvents = true
    ∧ denyBit .twb = some 0 ∧ Reg.sysEvents ∈ plainRegs ∧ (regRow Reg.sysEvents).isSome = true ∧ (inMode .run).light.step = none
    ∧ (reaches (inMode .run) .twb Reg.sysEvents = true ∧ srcRank .twb < srcRank .rope ∧ srcRank .rope < srcRank .slack
      ∧ srcRank .slack < srcRank .lay ∧ Reg.sysEvents ∉ [Reg.sysModeReq, Reg.splStagePtr, Reg.splStageData, Reg.splCommitFrame])
    ∧ (reaches (inMode .run) .twb Reg.sysModeReq = true ∧ reaches (inMode .run) .slack Reg.sysModeReq = true
      ∧ fld (0x4D000003 : Word) 31 24 = 0x4D ∧ srcRank .twb < srcRank .slack) := by
  refine ⟨open_of (by decide), open_of (by decide), open_of (by decide), ?_⟩; decide

/-- A write waits for the tick. -/
def waits (r : Nat) (v : Word) : State := { ticking .run with tickPend := [(r, v)] }

/-- A loaded image takes LMAX slots. -/
def lmaxIs (n : Nat) : State := { inMode .run with loader := { State.reset.loader with lmax := n } }

theorem witness_FrameRegisterWrites :
    Open (inMode .run) .slack Reg.sysFrame
    ∧ PlainTick { waits Reg.sysFrame 9 with tickPend := [] } ∧ PlainTick { waits Reg.mapL1Base 9 with tickPend := [] }
    ∧ Open (inMode .run) .slack Reg.clkNudge ∧ Open (lmaxIs 0) .slack Reg.laySlackMin ∧ Open (lmaxIs 4000) .slack Reg.laySlackMin
    ∧ Open (lmaxIs 0) .slack Reg.layWalkAllow ∧ Open (lmaxIs 4000) .slack Reg.layWalkAllow ∧ Open (inMode .workshop) .twb Reg.layFrameCfg
    ∧ Open (inMode .run) .slack Reg.layFrameCfg ∧ Open (inMode .run) .slack Reg.layCtrl ∧ Open (inMode .workshop) .twb Reg.layCtrl
    ∧ Open (inMode .run) .slack Reg.mapL1Base
    ∧ (waits Reg.sysFrame 9).clock.startDue = false ∧ (inMode .run).clk.follow = false ∧ (inMode .run).clk.aligning = false
    ∧ { (inMode .run).clk with follow := true }.follow = true
    ∧ (lmaxIs 0).tickPend = [] ∧ (lmaxIs 0).xp.cfgPend = [] ∧ (lmaxIs 0).light.waiting = []
    ∧ budget (lmaxIs 0) / 2 = 2048 ∧ 0 + getF (lmaxIs 0) Reg.layWalkAllow 10 0 + 2048 ≤ budget (lmaxIs 0)
    ∧ 4000 + getF (lmaxIs 4000) Reg.layWalkAllow 10 0 + 128 > budget (lmaxIs 4000)
    ∧ 0 + 1024 + getF (lmaxIs 0) Reg.laySlackMin 12 0 ≤ budget (lmaxIs 0)
    ∧ 4000 + 0 + getF (lmaxIs 4000) Reg.laySlackMin 12 0 > budget (lmaxIs 4000) ∧ lockedMode Mode.run = true
    ∧ getF (inMode .workshop) Reg.layCtrl 11 0 = 0 ∧ getF (withReg Reg.layCtrl 5 (inMode .workshop)) Reg.layCtrl 11 0 ≠ 0
    ∧ (waits Reg.mapL1Base 9).power.mode ≠ .raise ∧ (inMode .run).clock.slot < (inMode .run).clock.frameLen
    ∧ { (inMode .run).clock with slot := 4096 }.slot ≥ (inMode .run).clock.frameLen
    ∧ { (inMode .workshop).lay with stepping := true }.stepping = true := by
  refine ⟨open_of (by decide), ⟨by decide, settled_ticking _, rfl, rfl, rfl, rfl⟩, ⟨by decide, settled_ticking _, rfl, rfl, rfl, rfl⟩,
    open_of (by decide), open_of (by decide), open_of (by decide), open_of (by decide), open_of (by decide), open_of (by decide),
    open_of (by decide), open_of (by decide), open_of (by decide), open_of (by decide), ?_⟩
  decide

/-- The map is on, page 7 is in the cache, and the Lay runs. -/
def cached : State :=
  let s := withReg Reg.mapL1Base 0x80000100 layRuns
  { s with map := { s.map with cache := vset s.map.cache 0 (some ⟨7, .frame true 3, false, 0⟩) } }

theorem witness_OwnerCacheLogAndWatchdogWrites :
    Open (inMode .run) .slack Reg.mapCacheCtrl ∧ Open cached .slack Reg.mapCacheCtrl ∧ Open (inMode .run) .slack Reg.cltLogHead
    ∧ Open (inMode .run) .slack Reg.cltWdog ∧ Open (inMode .run) .rope Reg.cltWdog ∧ Open (inMode .run) .slack Reg.gpioOut
    ∧ Open (inMode .run) .slack Reg.gpioDir
    ∧ reaches denies .twb Reg.sysOwner = true ∧ fld (0xA6000000 : Word) 31 24 = 0xA6 ∧ fld (0 : Word) 31 24 ≠ 0xA6
    ∧ { (inMode .run).map with pin := some 5 }.pin ≠ none ∧ (inMode .run).map.pin = none ∧ (inMode .run).tickPend = []
    ∧ getB (inMode .run) Reg.mapL1Base 31 = false ∧ (0xFE0 : BitVec 12).toNat ≥ 0xFE0 ∧ (0xFDF : BitVec 12).toNat < 0xFE0
    ∧ getB cached Reg.mapL1Base 31 = true ∧ cacheFind cached.map 7 = some 0 ∧ pinnedCount cached.map < 24
    ∧ cacheFind cached.map 8 = none ∧ cached.lay.inLay = true := by
  refine ⟨open_of (by decide), open_of (by decide), open_of (by decide), open_of (by decide), open_of (by decide), open_of (by decide),
    open_of (by decide), ?_⟩
  decide

/-- The splice unit in a state, with an owner; and a stage pointer. -/
def spliceIn (st : SpliceState) (o : SpliceOwner) (ptr : Word) : State :=
  let s := withReg Reg.splStagePtr ptr (inMode .run)
  { s with splice := { s.splice with state := st, owner := o } }

theorem witness_SpliceWrites :
    Open (spliceIn .idle .none 0) .slack Reg.splStagePtr ∧ Open (spliceIn .staging .slack 5) .slack Reg.splStageData
    ∧ Open (spliceIn .armed .twb 0) .slack Reg.splCommitFrame ∧ Open (spliceIn .staging .slack 0) .slack Reg.splCtrl
    ∧ Open (spliceIn .staging .twb 0x80000010) .slack Reg.splStageData
    ∧ ownerOf .slack = .slack ∧ getF (spliceIn .staging .slack 0x80000010) Reg.splStagePtr 31 30 = 2
    ∧ getF (spliceIn .staging .slack 0x80000010) Reg.splStagePtr 12 0 = 16
    ∧ getF (spliceIn .staging .slack 0x40001FFF) Reg.splStagePtr 31 30 = 1
    ∧ atOrPast (frameNo (spliceIn .idle .none 0)) 0 = true ∧ atOrPast (frameNo (spliceIn .idle .none 0)) 1 = false
    ∧ getB (spliceIn .idle .none 0) Reg.splCtrl 0 = false ∧ getB (withReg Reg.splCtrl 1 (spliceIn .idle .none 0)) Reg.splCtrl 0 = true
    ∧ getB (spliceIn .idle .none 0) Reg.cltLogHead 22 = false ∧ (spliceIn .idle .none 0).cleat.queue.length < 4 := by
  refine ⟨open_of (by decide), open_of (by decide), open_of (by decide), open_of (by decide), open_of (by decide), ?_⟩; decide

/-- A commit is armed for a frame. -/
def armed (frame : Word) : State :=
  let s := withReg Reg.splCommitFrame frame (ticking .run)
  { s with splice := { s.splice with state := .armed } }

/-- A channel has waited n of 4 frames for a zero crossing. -/
def gainWaits (n : Nat) : State :=
  { inMode .run with splice := { State.reset.splice with gains := vset State.reset.splice.gains 3 (.wait 1 2 n 4) } }

theorem witness_SpliceEventsComplete :
    PlainTick (armed 1) ∧ (armed 1).clock.startDue = false ∧ (armed 1).power.mode ≠ .limp ∧ atOrPast (frameNo (armed 1) + 1) (getReg (armed 1) Reg.splCommitFrame) = true
    ∧ PlainTick (armed 2) ∧ (armed 2).splice.armNext = false
    ∧ atOrPast (frameNo (armed 2) + 1) (getReg (armed 2) Reg.splCommitFrame) = false
    ∧ (spliceIn .backfill .none 0).splice.state = .backfill ∧ (spliceIn .staging .twb 0).splice.state = .staging
    ∧ (spliceIn .idle .none 0).splice.state ≠ .backfill ∧ (gainWaits 4).splice.gains[(3 : Fin 16)] = .wait 1 2 4 4
    ∧ (gainWaits 3).splice.gains[(3 : Fin 16)] = .wait 1 2 3 4 ∧ (4 ≥ 4 ∧ ¬3 ≥ 4)
    ∧ ∀ old new n lim, (gainWaits 3).splice.gains[(4 : Fin 16)] ≠ .wait old new n lim :=
  ⟨⟨by decide, ⟨rfl, rfl, rfl, by decide⟩, rfl, rfl, rfl, rfl⟩, by decide, by decide, by decide,
    ⟨by decide, ⟨rfl, rfl, rfl, by decide⟩, rfl, rfl, rfl, rfl⟩,
    by decide, by decide, by decide, by decide, by decide, by decide, by decide, by decide, fun _ _ _ _ h => nomatch h⟩

/-! ### The log, events, supplies, wakes -/

/-- A fault waits for the log. -/
def item : LogItem := ⟨.illegalOp, .lay, false, false, false, 7, 9, 0, 5⟩
def faulted : State := { layRuns with cleat := { layRuns.cleat with queue := [item] } }

/-- The newest entry is the same fault. -/
def repeated : State :=
  withReg (Reg.log 15 0) (BitVec.ofNat 32 (faultNo .illegalOp * 2 ^ 24 + logCtxNo .lay * 2 ^ 22 + 2 ^ 18))
    (withReg (Reg.log 15 1) 9 (withReg (Reg.log 15 3) 5 faulted))

/-- Event 21 is pending and enabled while Slack issues. -/
def eventWaits : State := withReg Reg.layEvtPend 0x200000 (withReg Reg.layEvtEn 0x200000 slackRuns)

theorem witness_LogEventsAndSuppliesComplete :
    faulted.cleat.queue = [item] ∧ logRepeats faulted item = false ∧ logRepeats repeated item = true
    ∧ getB faulted Reg.cltLogHead 22 = false ∧ getB (withReg Reg.cltLogHead 0x400000 faulted) Reg.cltLogHead 22 = true
    ∧ layRuns.cleat.queue = [] ∧ issuer eventWaits = some false ∧ getB eventWaits Reg.layEvtPend 21 = true
    ∧ getB eventWaits Reg.layEvtEn 21 = true ∧ (∀ k, k < 21 → getB eventWaits Reg.layEvtPend k = false ∨ getB eventWaits Reg.layEvtEn k = false)
    ∧ issuer layRuns ≠ some false ∧ { layRuns.cleat with pinLow := true }.pinLow = true
    ∧ layRuns.power.mode ∉ [Mode.off, .dormant, .standby] ∧ Mode.off ∈ [Mode.off, .dormant, .standby]
    ∧ (2899 : BitVec 16).toNat < 2900 ∧ (2950 : BitVec 16).toNat ≥ 2950 ∧ (2949 : BitVec 16).toNat < 2950
    ∧ (vddxGood 1700 = true ∧ vddxGood 1950 = true ∧ vddxGood 3000 = true ∧ vddxGood 3600 = true ∧ vddxGood 1951 = false
      ∧ vddxGood 1699 = false ∧ vddxGood 2999 = false ∧ vddxGood 3601 = false) := by decide

/-- DORMANT with every wake source enabled and a timer. -/
def asleep : State := withReg Reg.pwrWakeEn 0xFF (withReg Reg.pwrDormantCfg 5 (inMode .dormant))

def resuming : State := { asleep with power := { asleep.power with dueResume := true } }

/-- LIN with a wake-up signal due, at a stage. -/
def lin (w : LinWake) (due : Bool) : State :=
  let s := withReg Reg.halCfg 2 (inMode .run)
  { s with hal := { s.hal with wake := w, wakeDue := due, heard := true } }

/-- LIN with QUIESCE on an idle bus, and a whole go-to-sleep frame. -/
def linIdles : State :=
  let s := withReg Reg.pwrDormantCfg 0x40000 (lin .idle false)
  { s with hal := { s.hal with phase := .data 0x3C none 8 (List.replicate 9 0) } }

theorem witness_WakesSleepAndLinWake :
    Open (inMode .run) .slack Reg.pwrWakeEn ∧ Open (lin .idle false) .slack Reg.halWake
    ∧ Nat.land (1 : BitVec 8).toNat (getF asleep Reg.pwrWakeEn 7 0) ≠ 0 ∧ Nat.land (0 : BitVec 8).toNat (getF asleep Reg.pwrWakeEn 7 0) = 0
    ∧ asleep.power.mode ∈ [Mode.dormant, .standby] ∧ getF asleep Reg.pwrDormantCfg 15 0 ≠ 0 ∧ getB asleep Reg.pwrWakeEn 7 = true
    ∧ resuming.power.dueResume = true ∧ asleep.power.dueRequest = false ∧ asleep.power.dueResume = false
    ∧ (lin .idle true).hal.wakeDue = true ∧ pinModes (lin .idle true).power.mode = true ∧ (lin .idle false).hal.wakeDue = false
    ∧ halMode (lin .idle true) ≠ 0 ∧ halMode (withReg Reg.halCfg 0 (lin (.waiting 3) true)) = 0
    ∧ pinModes { (lin (.waiting 3) false).power with mode := .limp }.mode = false
    ∧ (lin .idle false).hal.wake = .idle ∧ (lin (.signal 3) false).hal.wake = .signal 3 ∧ (lin (.waiting 3) false).hal.wake = .waiting 3
    ∧ linIdles.power.factory = false ∧ linIdles.power.mode ∈ [Mode.run, .holdover, .workshop] ∧ linIdles.power.pendingReq = none
    ∧ linIdles.clock.holdDue = false ∧ linIdles.light.waiting = [] ∧ getF linIdles Reg.pwrDormantCfg 17 16 ≤ 1
    ∧ halMode linIdles = 2 ∧ linIdles.hal.heard = true ∧ getB linIdles Reg.pwrDormantCfg 18 = true
    ∧ linIdles.hal.phase = .data 0x3C none 8 (List.replicate 9 0) ∧ wholeFrame (lin .idle false) = none
    ∧ getB (withReg Reg.pwrDormantCfg 0 (lin .idle false)) Reg.pwrDormantCfg 18 = false := by
  refine ⟨open_of (by decide), open_of (by decide), ?_⟩; decide

/-! ### The Halyard port -/

/-- A character with all data bits 0: start bit low, stop bit as given. -/
def char0 (stop : BitVec 3) : CharSamples := ⟨0, Vector.replicate 8 0, 0, stop⟩

/-- UART mode with so many bytes received and waiting to be sent. -/
def uart (rx tx : Nat) (shift : Option Byte) : State :=
  let s := withReg Reg.halCfg 1 (inMode .run)
  { s with hal := { s.hal with rx := List.replicate rx 0, tx := List.replicate tx 0, shift := shift } }

theorem witness_UartCharactersComplete :
    Open (uart 0 0 none) .slack Reg.halBuf ∧ Open (uart 0 15 (some 1)) .slack Reg.halBuf ∧ Open (uart 0 16 (some 1)) .slack Reg.halBuf
    ∧ halServes (uart 15 0 none) = true ∧ halMode (uart 15 0 none) = 1 ∧ majority (char0 7).start = false ∧ majority (char0 7).stop = true
    ∧ majority (char0 1).stop = false ∧ (uart 15 0 none).hal.rx.length < 16 ∧ (uart 16 0 none).hal.rx.length ≥ 16
    ∧ halServes (inMode .off) = false ∧ halMode (withReg Reg.halCfg 0 (inMode .run)) = 0
    ∧ (uart 0 15 (some 1)).hal.tx.length < 16 ∧ (uart 0 16 (some 1)).hal.tx.length ≥ 16
    ∧ slackMode (uart 0 0 none).power.mode = true ∧ (uart 0 0 none).power.factory = false ∧ slackMode (inMode .off).power.mode = false
    ∧ (uart 0 2 (some 1)).hal.tx = [0, 0] ∧ getB (uart 0 0 none) Reg.cltLogHead 22 = false ∧ (uart 0 0 none).cleat.queue.length < 4 := by
  refine ⟨open_of (by decide), open_of (by decide), open_of (by decide), ?_⟩; decide

/-- A frame table of a PARAM_IN entry, a trigger and a published frame; and the receiver in a phase. -/
def linTable : List FrameEntry := [⟨0x11, 2, false, false, 1, 0, 2, true, 1⟩, ⟨0x12, 1, false, false, 2, 0, 1, false, 0⟩, ⟨0x13, 1, true, true, 3, 0, 1, false, 0⟩]
def linPhase (p : LinPhase) : State :=
  let s := lin .idle false
  { s with
    hal := { s.hal with table := linTable, phase := p, keep := [(0, 7)] }
    loader := { s.loader with spln := [⟨1, 8191, true, 4⟩] } }

theorem witness_LinFramesParametersAndTriggers :
    linLive (lin .idle false) = true ∧ linLive (inMode .off) = false
    ∧ getF (lin .idle false) Reg.halLinCfg 3 0 ≤ (15 : BitVec 8).toNat ∧ (linPhase .sync).hal.phase = .sync
    ∧ 50 * ((2 * (0 : Nat) : Int) - (getF (lin .idle false) Reg.halBaud 23 0 : Int)).natAbs ≥ getF (lin .idle false) Reg.halBaud 23 0
    ∧ (linPhase .pid).hal.phase = .pid ∧ pinModes (linPhase .pid).power.mode = true ∧ pidParity 0x11 = true ∧ pidParity 0x51 = false
    ∧ (linPhase .pid).hal.table.findIdx? (fun e => e.id == (0x11 : Byte).toNat % 64) = some 0
    ∧ (linPhase .pid).hal.table.findIdx? (fun e => e.id == (0x3C : Byte).toNat % 64) = none
    ∧ (linPhase (.data 0x11 (some 0) 2 [1])).hal.phase = .data 0x11 (some 0) 2 [1] ∧ majority (char0 7).start = false
    ∧ (linPhase .wait).hal.table[0]? = some ⟨0x11, 2, false, false, 1, 0, 2, true, 1⟩
    ∧ (charByte (char0 7)).toNat = checksum false 0x11 [0xEE, 0] ∧ (charByte (char0 7)).toNat ≠ checksum false 0x11 [1, 2]
    ∧ (linPhase (.publish 0x13 2)).hal.phase = .publish 0x13 2 ∧ (linPhase .wait).hal.phase ∈ [LinPhase.wait, .sync, .pid]
    ∧ wholeEntry (linPhase (.data 0x11 (some 0) 2 [1, 2, 3])) 1 = some (0, ⟨0x11, 2, false, false, 1, 0, 2, true, 1⟩, [1, 2])
    ∧ findParam (linPhase .wait) 1 = some ⟨1, 8191, true, 4⟩ ∧ spliceTakes (linPhase .wait) .rom = true
    ∧ spliceTakes (spliceIn .armed .twb 0) .rom = false ∧ wholeEntry (linPhase .wait) 1 = none ∧ (linPhase .wait).hal.keep = [(0, 7)]
    ∧ (lin .idle false).hal.keep = [] ∧ wholeEntry (linPhase (.data 0x12 (some 1) 1 [3, 9])) 2 = some (1, ⟨0x12, 1, false, false, 2, 0, 1, false, 0⟩, [3])
    ∧ wholeEntry (linPhase .wait) 2 = none ∧ pinModes (linPhase .wait).power.mode = true ∧ pinModes (inMode .limp).power.mode = false
    ∧ (linPhase (.data 0x11 (some 0) 2 [1, 2])).hal.phase = .data 0x11 (some 0) 2 [1, 2] ∧ majority (char0 1).stop = false := by decide

theorem witness_sync_within_2_percent :
    let s := withReg Reg.halBaud 1000 (linPhase .sync)
    linLive s = true ∧ s.hal.phase = .sync ∧ 50 * ((2 * (510 : Nat) : Int) - (getF s Reg.halBaud 23 0 : Int)).natAbs ≤ getF s Reg.halBaud 23 0
    ∧ 50 * ((2 * (511 : Nat) : Int) - (getF s Reg.halBaud 23 0 : Int)).natAbs > getF s Reg.halBaud 23 0 := by decide

/-! ### The two-wire bus -/

/-- The commander served in RUN or WORKSHOP, with PEC on. -/
def pecOn (m : Mode) : State := withReg Reg.twbCfg 0x30000000 (inMode m)

/-- The cell of parameter 1 has a double error; your Slack program is in a delay slot. -/
def doubleCell (s : State) : State := { s with mem := { s.mem with ecc := [⟨tableRam s, 8191, true, false⟩] } }
def branches (s : State) : State :=
  { s with lay := { s.lay with slack := { s.lay.slack with branch := some ⟨0, 9, true, false, true⟩ } } }

/-- A Slack-served command executes. -/
def serves (code : Byte) (d : List Byte) : State :=
  let s := inMode .run
  { s with
    twb := { s.twb with slack := some (code, d) }
    loader := { s.loader with spln := [⟨1, 8191, true, 4⟩] } }

theorem witness_TwoWireCommandsComplete :
    twbAnswers (inMode .off) = false ∧ twbAnswers (inMode .run) = true ∧ getB (pecOn .run) Reg.twbCfg 28 = true
    ∧ getB (withReg Reg.twbCfg 0 (inMode .run)) Reg.twbCfg 28 = false ∧ slackMode (inMode .run).power.mode = true ∧ (inMode .run).twb.slack = none
    ∧ (inMode .run).power.mode ≠ .raise ∧ ([5, 1, 0, 0, 0, 0] : List Byte).length = 6 ∧ ([9, 1, 0, 0, 0, 0, 0, 0, 0, 0] : List Byte).length = 10
    ∧ (serves 0x08 [5, 1, 0, 0, 0, 0]).twb.slack = some (0x08, [5, 1, 0, 0, 0, 0])
    ∧ findParam (serves 0x08 [5, 1, 0, 0, 0, 0]) (at16 [5, 1, 0, 0, 0, 0] 1) = some ⟨1, 8191, true, 4⟩
    ∧ spliceTakes (serves 0x08 []) .rom = true ∧ findParam (serves 0x08 []) (at16 [5, 2, 0, 0, 0, 0] 1) = none
    ∧ findParam (serves 0x09 [1, 0]) (at16 [1, 0] 0) = some ⟨1, 8191, true, 4⟩ ∧ slackMode (inMode .off).power.mode = false
    ∧ slackBetween (serves 0x09 [1, 0]) = true ∧ slackBetween (branches (serves 0x09 [1, 0])) = false
    ∧ eccAt (serves 0x09 [1, 0]).mem (tableRam (serves 0x09 [1, 0])) 8191 = none
    ∧ (eccAt (doubleCell (serves 0x09 [1, 0])).mem (tableRam (doubleCell (serves 0x09 [1, 0]))) 8191).map (·.double) = some true
    ∧ getB (serves 0x09 [1, 0]) Reg.cltLogHead 22 = false ∧ (serves 0x09 [1, 0]).cleat.queue.length < 4
    ∧ (serves 0x09 [1, 0]).twb.slack = some (0x09, [1, 0]) := by decide

/-- The pointer stands at an aligned offset. -/
def pointsAt (p : Byte) : State := { inMode .run with twb := { State.reset.twb with ptr := p, page := 0x18 } }

theorem witness_TwoWirePlanesComplete :
    twbAnswers (inMode .off) = false ∧ twbAnswers (inMode .run) = true ∧ slackMode (inMode .run).power.mode = true
    ∧ (0xFC : Byte).toNat % 4 = 0 ∧ (0xFC : Byte) ≠ 0 ∧ (pointsAt 0xFC).twb.page.toNat ≤ 0x18 ∧ (pointsAt 0xFC).power.factory = false
    ∧ (writeReg .twb (64 * 0x18 + 0xFC / 4) 0 0xF (pointsAt 0xFC)).2 = false
    ∧ twbAnswers (inMode .workshop) = true ∧ ([0, 0, 0, 0, 1] : List Byte).length ≥ 4 ∧ at32 [0, 0, 0, 0, 1] 0 = 0
    ∧ 4 + 0 < ([0, 0, 0, 0, 1] : List Byte).length ∧ ([0, 0, 0, 0, 1] : List Byte).length < 0x244
    ∧ at32 [1, 0, 0, 0, 1] 0 ≠ 0 ∧ (inMode .workshop).loader.state ≠ .receiving ∧ (inMode .run).power.mode ≠ .workshop
    ∧ asleep.power.mode = .dormant ∧ getB asleep Reg.pwrWakeEn 1 = true ∧ (2 : BitVec 2) ≠ 3
    ∧ getB (withReg Reg.twbTimeout 3 (inMode .run)) Reg.twbTimeout 0 = true ∧ getB (withReg Reg.twbTimeout 3 (inMode .run)) Reg.twbTimeout 1 = true
    ∧ getB (withReg Reg.twbTimeout 0 (inMode .run)) Reg.twbTimeout 0 = false := by decide

/-- The controller is on, with a transfer of so many tries or a script. -/
def controller (j : Option TwbJob) (script : List Byte) : State :=
  let s := pecOn .run
  { s with
    twb := { s.twb with job := j, sdaWait := true }
    loader := { s.loader with twbi := script, twbiOn := true } }

def job (tries : Nat) : TwbJob := ⟨0x50, 1, 32, false, tries, false⟩

theorem witness_TwoWireControllerCompletes :
    Open (controller none []) .slack Reg.twbCtrl ∧ Open (controller (some (job 0)) []) .slack Reg.twbCtrl
    ∧ Open (controller none []) .slack Reg.twbCbuf
    ∧ getB (controller none []) Reg.twbCfg 29 = true ∧ getB (withReg Reg.twbCfg 0 (inMode .run)) Reg.twbCfg 29 = false
    ∧ (controller (some (job 0)) []).twb.job = some (job 0) ∧ (job 0).rlen ≤ 32 ∧ (job 0).pec = false ∧ (job 0).script = false
    ∧ (job 0).tries ≥ getF (controller (some (job 0)) []) Reg.twbCfg 27 26
    ∧ (job 0).tries < getF (withReg Reg.twbCfg 0x3C000000 (controller (some (job 0)) [])) Reg.twbCfg 27 26
    ∧ getB (withReg Reg.twbTimeout 3 (controller none [])) Reg.twbTimeout 0 = true
    ∧ getB (withReg Reg.twbTimeout 0 (controller none [])) Reg.twbTimeout 1 = false ∧ (controller none []).twb.sdaWait = true
    ∧ (controller none []).power.factory = false ∧ (controller none []).loader.twbiOn = true ∧ (inMode .run).loader.twbiOn = false
    ∧ (controller none [1, 0x50, 1, 0, 7, 0, 0, 0]).loader.twbi = 1 :: [0x50, 1, 0, 7, 0, 0, 0]
    ∧ (controller none [2, 0, 0, 0]).loader.twbi = 2 :: [0, 0, 0] ∧ (controller none [0, 0, 0, 0]).loader.twbi = 0 :: [0, 0, 0] := by
  refine ⟨open_of (by decide), open_of (by decide), open_of (by decide), ?_⟩; decide

/-! ### The rope -/

/-- A request: opcode and payload, without a CRC word, its RSS# fall and last bit at the borders of SET_FRAME's window. -/
def req (op : Nat) (ws : List Word) : Exchange := ⟨BitVec.ofNat 32 (op * 2 ^ 24 + ws.length * 2 ^ 16) :: ws, 0, 256, 0, 3839⟩

/-- Its header. -/
def head (op n : Nat) : Word := BitVec.ofNat 32 (op * 2 ^ 24 + n * 2 ^ 16)

/-- A worker in a mode. -/
def worker (m : Mode) : State := ticking m

/-- A header whose fields are those of a request without CRC word is one, while no request executes. -/
theorem request_of {s : State} {op n : Nat} {ws : List Word}
    (h : (ropeHears s && s.rope.next.isNone && decide (ws.length = n) && decide (fld (head op n) 31 24 = op)
      && decide (fld (head op n) 23 16 = n) && !bit (head op n) 0 && decide (fld (head op n) 7 3 = 0) && !bit (head op n) 1) = true) :
    Request s (req op ws) op n (head op n) ws := by
  simp only [Bool.and_eq_true, decide_eq_true_eq, Bool.not_eq_true', Option.isNone_iff_eq_none] at h
  obtain ⟨⟨⟨⟨⟨⟨⟨h1, h2⟩, h3⟩, h4⟩, h5⟩, h6⟩, h7⟩, h8⟩ := h
  exact ⟨⟨h1, h2, rfl, by simp [req, head, h3]⟩, h4, h5, by omega, .inl h6, h7, h8⟩

theorem witness_RopeRequestsExecute :
    Request (worker .run) (req 0 []) 0 0 (head 0 0) [] ∧ Request (worker .run) (req 1 []) 1 0 (head 1 0) []
    ∧ Request (worker .run) (req 2 []) 2 0 (head 2 0) [] ∧ Request (worker .run) (req 7 []) 7 0 (head 7 0) []
    ∧ Request (worker .workshop) (req 10 []) 10 0 (head 10 0) [] ∧ Request (worker .workshop) (req 9 [0, 5]) 9 2 (head 9 2) [0, 5]
    ∧ Request (worker .run) (req 3 [0x013F18]) 3 1 (head 3 1) [0x013F18]
    ∧ Request (worker .run) (req 4 [0x0800, 7]) 4 2 (head 4 2) [0x0800, 7]
    ∧ Request (worker .run) (req 5 [0xFFF, 7]) 5 2 (head 5 2) [0xFFF, 7] ∧ Request (worker .run) (req 6 [9]) 6 1 (head 6 1) [9]
    ∧ Request (inMode .limp) (req 8 [3]) 8 1 (head 8 1) [3] ∧ Requests (inMode .limp) .rope ∧ Request limpLow (req 8 [3]) 8 1 (head 8 1) [3] := by
  refine ⟨request_of (by decide), request_of (by decide), request_of (by decide), request_of (by decide), request_of (by decide),
    request_of (by decide), request_of (by decide), request_of (by decide), request_of (by decide), request_of (by decide),
    request_of (by decide), ⟨by decide, rfl, rfl, rfl⟩, request_of (by decide)⟩

theorem witness_rope_fields_at_their_borders :
    fld (0x013F18 : Word) 7 0 = 0x18 ∧ fld (0x013F18 : Word) 15 8 + fld (0x013F18 : Word) 23 16 = 64 ∧ fld (0x023F18 : Word) 15 8 + fld (0x023F18 : Word) 23 16 > 64
    ∧ fld (0x19 : Word) 7 0 > 0x18 ∧ 0x18 ∉ [0x06, 0x0A, 0x0C, 0x0D] ∧ denied denies .rope Reg.sysEvents = true
    ∧ (fld (0xFFF : Word) 11 0 + (2 - 1) ≤ 4096) ∧ (fld (0xFFF : Word) 11 0 + (3 - 1) > 4096)
    ∧ (256 ≤ (req 6 [9]).fallSlot.toNat ∧ (req 6 [9]).endSlot.toNat < budget (worker .run) - 256)
    ∧ ¬((3840 : BitVec 14).toNat < budget (worker .run) - 256) ∧ denied (worker .run) .rope Reg.sysFrame = false
    ∧ denied denies .rope Reg.sysFrame = true ∧ lengthOk 9 2 = true ∧ lengthOk 5 126 = true ∧ lengthOk 5 1 = false := by decide

/-- An exchange with a broken length; a request executes; a header that asks for a CRC; a retry of the last request. -/
def executing : State :=
  let s := worker .run
  { s with rope := { s.rope with next := some ⟨0, 1, [], false⟩ } }
def answered : State :=
  let s := worker .run
  { s with rope := { s.rope with last := some ⟨0, 1, [], false⟩ } }
def crcOn : State := withReg Reg.ropCfg 0x08000000 (worker .run)
def crcOff : State := withReg Reg.ropCfg 0 (worker .run)

theorem witness_RopeRequestsRejected :
    Heard (worker .run) (req 0 []) (head 0 0) [] ∧ Heard answered ⟨[2], 0, 0, 0, 0⟩ 2 [] ∧ Heard crcOn ⟨[1, 7], 0, 0, 0, 0⟩ 1 [7]
    ∧ Heard crcOff ⟨[1, 7], 0, 0, 0, 0⟩ 1 [7]
    ∧ Heard (worker .limp) (req 3 [0]) (head 3 1) [0]
    ∧ ropeHears (inMode .off) = false ∧ ropeHears executing = true ∧ executing.rope.next = some ⟨0, 1, [], false⟩
    ∧ (⟨[0], 5, 0, 0, 0⟩ : Exchange).extra ≠ 0 ∧ ([] : List Word).length < fld (head 3 1) 23 16 + b2n (bit (head 3 1) 0)
    ∧ bit (1 : Word) 0 = true ∧ getB crcOff Reg.ropCfg 27 = false ∧ getB crcOn Reg.ropCfg 27 = true ∧ 0 < [(7 : Word)].length
    ∧ [(7 : Word)].getD 0 0 ≠ crcWord (1 :: [(7 : Word)].take 0) ∧ fld (8 : Word) 7 3 ≠ 0 ∧ bit (2 : Word) 1 = true
    ∧ answered.rope.last = some ⟨0, 1, [], false⟩ ∧ slackMode (worker .limp).power.mode = false ∧ (worker .run).rope.next = none := by
  refine ⟨⟨by decide, rfl, rfl, rfl⟩, ⟨by decide, rfl, rfl, rfl⟩, ⟨by decide, rfl, rfl, rfl⟩, ⟨by decide, rfl, rfl, rfl⟩,
    ⟨by decide, rfl, rfl, rfl⟩, ?_⟩
  decide

/-- A manager whose code 1 has a profile of 8 words of 32 bits, sending a header without payload. -/
def manager : State :=
  let s := withReg (Reg.ropProf 0) 0x00F800FF (withReg Reg.ropCfg 0x80000F08 (inMode .run))
  { s with rope := { s.rope with tx := [] } }

/-- A request of the manager service to code 7 that was tried so often, and its TIME reply. -/
def ask (tries : Nat) : SvcAsk := ⟨7, [head 7 0], tries, 0⟩
def asks (tries : Nat) : State :=
  { manager with rope := { manager.rope with
      svc := { manager.rope.svc with asks := [ask tries] }, wire := [.service ⟨7, [head 7 0], 0, 0⟩ [head 7 0]] } }

/-- A transfer or a chain feed on the wire. -/
def onWire (j : Job) : State := { manager with rope := { manager.rope with wire := [j] } }

theorem witness_RopeMasterCompletes :
    Open manager .slack Reg.ropXfer ∧ Open (inMode .run) .slack Reg.ropXfer ∧ Open (inMode .run) .slack Reg.ropBufdata
    ∧ Open (inMode .run) .slack Reg.ropCfg
    ∧ xferBusy manager = false ∧ getB manager Reg.ropCfg 31 = true ∧ 1 ≤ topCode manager ∧ codeProfile manager 1 = 0x00F800FF
    ∧ fld (0x00F800FF : Word) 23 19 = 31 ∧ (fld (0x00F800FF : Word) 11 0 + 1) % 32 = 0 ∧ fld (0x00F800FF : Word) 30 29 ≤ 1
    ∧ 32 * 8 ≤ fld (0x00F800FF : Word) 11 0 + 1 ∧ ropWord manager false 0 = 0 ∧ bit (0x00F800FF : Word) 31 = false
    ∧ xferBusy (onWire (.xfer 1 false 8 32 true false [])) = true ∧ getB (inMode .run) Reg.ropCfg 31 = false
    ∧ (onWire (.xfer 1 false 128 32 true false [])).rope.wire = [.xfer 1 false 128 32 true false []]
    ∧ (onWire (.feed 7 1 [])).rope.wire = [.feed 7 1 []] ∧ manager.rope.wire = [] ∧ slackMode manager.power.mode = true
    ∧ getB (withReg Reg.ropCfg 0x40000000 (inMode .run)) Reg.ropCfg 30 = true ∧ pinModes (inMode .run).power.mode = true
    ∧ getF (withReg Reg.ropCfg 0x40000000 (inMode .run)) Reg.ropCfg 29 28 = 0 ∧ pinModes (inMode .off).power.mode = false
    ∧ (asks 2).rope.wire = [.service ⟨7, [head 7 0], 0, 0⟩ [head 7 0]] ∧ (asks 3).rope.svc.asks.find? (·.code == 7) = some (ask 3)
    ∧ (svcBad (asks 2) (ask 2) 1 [0x00020000] = true ∧ (ask 2).tries < 3) ∧ (svcBad (asks 3) (ask 3) 1 [] = true ∧ (ask 3).tries ≥ 3)
    ∧ (svcBad (asks 0) (ask 0) 3 [0x02010000, 0, 100] = false ∧ fld ((ask 0).words.headD 0) 31 24 = 7
      ∧ fld (([0x02010000, 0, 100] : List Word).headD 0) 23 16 = 1 ∧ 2 ≤ fld (([0x02010000, 0, 100] : List Word).headD 0) 31 24)
    ∧ getB manager Reg.ropCfg 3 = true ∧ (15 : Byte).toNat ≤ getF manager Reg.ropCfg 15 8 ∧ (15 : Byte) ≠ 0
    ∧ getB (inMode .run) Reg.ropCfg 3 = false := by
  refine ⟨open_of (by decide), open_of (by decide), open_of (by decide), open_of (by decide), ?_⟩; decide

/-! ### The Reel engine and the X-port -/

/-- Channel 2 as a copy of 96 cells from Strand RAM 131072 − 96 on to Deck RAM 4000 on, in a state. -/
def copies (en : Bool) (st : ChState) : State :=
  let s := withReg (Reg.rel 2 0) (BitVec.ofNat 32 (b2n en * 2 ^ 31 + 2 ^ 29 + 2 ^ 23))
    (withReg (Reg.rel 2 1) 130976 (withReg (Reg.rel 2 2) 4000 (withReg (Reg.rel 2 3) 96 (inMode .run))))
  setChan s 2 { chan s 2 with st := st }

/-- Channel 2 as a reel of 8 pages that fills page 3 under its lease, or wants to. -/
def reels (fill : Option Nat) (holder : Option Nat) : State :=
  let s := withReg (Reg.rel 2 0) 0x88300100 (withReg (Reg.rel 2 3) 8 (withReg (Reg.rel 2 4) 0x0400 (xpWorks (inMode .run))))
  let s := setChan s 2 { chan s 2 with st := .running, fill := fill }
  { s with xp := { s.xp with holder := holder } }

/-- Channel 2 ends at the next burst boundary. -/
def leaves (s : State) : State := setChan s 2 { chan s 2 with leave := true }

theorem witness_ReelChannelsComplete :
    Open (copies false .idle) .slack (Reg.rel 2 0) ∧ Open (copies true .running) .slack (Reg.rel 2 0)
    ∧ Open (copies true .running) .slack (Reg.rel 2 4) ∧ 64 * 0x08 + (0x12 : BitVec 6).toNat = Reg.rel 2 4
    ∧ getB (copies false .idle) (Reg.rel 2 0) 31 = false ∧ (chan (copies false .idle) 2).st ≠ .running
    ∧ getB (copies true .running) (Reg.rel 2 0) 31 = true ∧ (chan (copies true .running) 2).st = .running
    ∧ (chan (reels (some 3) (some 2)) 2).fill = some 3 ∧ (reels (some 3) (some 2)).xp.holder = some 2
    ∧ (chan (copies true .running) 2).fill = none ∧ chKind (copies true .running) 2 = 1 ∧ chF (copies true .running) 2 0 28 26 = 0
    ∧ chF (copies true .running) 2 0 25 23 = 1 ∧ chF (copies true .running) 2 1 31 0 + chLen (copies true .running) 2 ≤ 131072
    ∧ chF (copies true .running) 2 2 31 0 + chLen (copies true .running) 2 ≤ 4096 ∧ (copies true .running).mem.ecc = []
    ∧ chKind (reels none none) 2 = 0 ∧ (chan (copies true .running) 2).leave = false ∧ (chan (copies false .idle) 2).leave = false
    ∧ (chan (reels (some 3) (some 2)) 2).leave = false ∧ (chan (leaves (reels (some 3) (some 2))) 2).leave = true
    ∧ (chan (leaves (reels (some 3) (some 2))) 2).fill = some 3 ∧ (leaves (reels (some 3) (some 2))).xp.holder = some 2
    ∧ (chan (reels (some 3) (some 2)) 2).st = .running ∧ (copies true .running).xp.holder ≠ some 2 := by
  refine ⟨open_of (by decide), open_of (by decide), open_of (by decide), ?_⟩; decide

/-- The X-port in a condition. -/
def xport (f : Xport → Xport) : State := { inMode .run with xp := f State.reset.xp }

/-- Channel 2 copies 8192 cells under its lease, n of them done; devices are being reset; what a flash's SFDP holds. -/
def bigCopy (n : Nat) : State :=
  let s := withReg (Reg.rel 2 3) 8192 (copies true .running)
  let s := setChan s 2 { chan s 2 with units := n }
  { s with xp := { s.xp with holder := some 2 } }
def resets (devs : Nat) : State := xport ({ · with recovering := true, resetDevs := devs })
def flash : Sfdp := ⟨2 ^ 22, none, none, none, ⟨0x13, 0x12, 8, 133000, true, []⟩⟩

theorem witness_XportCompletes :
    leaseOpen (reels none none) = true ∧ chWants (reels none none) 2 = true ∧ (∀ k, k < 8 → k ≠ 2 → chWants (reels none none) k = false)
    ∧ nextFill (reels none none) 2 = some 0 ∧ fillAbsent (reels none none) 2 0 = false
    ∧ leaseOpen (xport ({ · with direct := true })) = true ∧ (∀ k, k < 8 → chWants (inMode .run) k = false)
    ∧ directAbsent (xport ({ · with direct := true })) (getReg (inMode .run) Reg.xpDcmd) = true
    ∧ directAbsent (xpWorks (inMode .run)) (getReg (inMode .run) Reg.xpDcmd) = false ∧ leaseOpen (xpWorks (inMode .run)) = true
    ∧ leaseOpen (xport ({ · with holder := some 8 })) = false ∧ (8 ≤ 8) ∧ (inMode .run).xp.holder = none
    ∧ ((bigCopy 4096).xp.holder = some 2 ∧ chKind (bigCopy 4096) 2 ≠ 0 ∧ chLen (bigCopy 4096) 2 - (chan (bigCopy 4096) 2).units ≤ 4096)
    ∧ 4096 < chLen (bigCopy 4095) 2 - (chan (bigCopy 4095) 2).units ∧ (chan (bigCopy 4095) 2).leave = false
    ∧ (nbit (resets 3).xp.resetDevs 0 = true ∧ nbit (resets 2).xp.resetDevs 0 = false ∧ (resets 3).xp.recovering = true)
    ∧ ((resets 3).xp.sfdp = none ∧ { (resets 3).xp with sfdp := some flash }.sfdp = some flash ∧ flash ≠ { flash with density := 0 })
    ∧ { (resets 3).xp with blocked := true }.blocked = true ∧ getB (withReg Reg.xpResetCfg 0 (inMode .run)) Reg.xpResetCfg 31 = false
    ∧ getB (inMode .run) Reg.xpResetCfg 31 = true
    ∧ (inMode .run).xp.recovering = false ∧ (inMode .run).xp.blocked = false ∧ xpIdle (inMode .run) = true
    ∧ xpIdle (xport ({ · with holder := some 8 })) = false
    ∧ (xport ({ · with cfgPend := [(Reg.xpCfg, 5)] })).xp.cfgPend = [(Reg.xpCfg, 5)] ∧ (inMode .run).xp.direct = false
    ∧ (xport ({ · with direct := true, holder := some 8 })).xp.holder = some 8
    ∧ getF (withReg Reg.xpDcmd 32 (inMode .run)) Reg.xpDcmd 5 0 ≤ 32 ∧ getB (withReg Reg.xpDcmd 32 (inMode .run)) Reg.xpDcmd 20 = false
    ∧ getB (withReg Reg.xpDcmd 0x10000 (inMode .run)) Reg.xpDcmd 16 = true ∧ getB (inMode .run) Reg.cltLogHead 22 = false := by decide

theorem witness_direct_transactions_start :
    Open (inMode .run) .slack Reg.xpDcmd ∧ Open (xport ({ · with direct := true })) .slack Reg.xpDcmd
    ∧ (xport ({ · with recovering := true })).xp.recovering = true ∧ (xport ({ · with blocked := true })).xp.blocked = true :=
  ⟨open_of (by decide), open_of (by decide), rfl, rfl⟩

/-! ### Whipping units, Tally monitors, sinks, audio -/

/-- Unit 3 with so many queued bytes and a compare that waits for some. -/
def whipHas (n : Nat) (check : Option Nat) : State :=
  { inMode .run with whip := vset State.reset.whip 3 { Whip.init with queue := List.replicate n 7, check := check } }

theorem witness_WhippingUnitsAndCrcSteps :
    Open (inMode .run) .slack (Reg.whp 3 0) ∧ Open crcOn .slack (Reg.whp 1 0)
    ∧ whipOwner (inMode .run) 3 = 0 ∧ whipOwner crcOn 1 ≠ 0 ∧ fld (0x200000 : Word) 21 16 = 32 ∧ bit (0x200000 : Word) 1 = false
    ∧ (whipUnit (whipHas 0 none) 3).queue = [] ∧ (whipUnit (whipHas 4 none) 3).queue ≠ []
    ∧ reaches (inMode .run) .slack (Reg.whp 3 4) = true ∧ getF (inMode .run) Reg.sysOwner 3 0 = 0
    ∧ (whipUnit (whipHas 4 none) 3).queue.length + (fedBytes .feed32 0).length ≤ 8
    ∧ (whipUnit (whipHas 5 none) 3).queue.length + (fedBytes .feed32 0).length > 8
    ∧ (whipUnit (whipHas 2 none) 3).queue = 7 :: [7] ∧ (whipUnit (whipHas 2 (some 2)) 3).check = some (whipUnit (whipHas 2 (some 2)) 3).queue.length
    ∧ (whipUnit (whipHas 2 none) 3).check ≠ some 1 ∧ 0xFFFF < 2 ^ 16 := by
  refine ⟨open_of (by decide), open_of (by decide), ?_⟩; decide

/-- The bytes of the block "123456789" of Table 18.4. -/
def digits : List Byte := [0x31, 0x32, 0x33, 0x34, 0x35, 0x36, 0x37, 0x38, 0x39]

set_option maxRecDepth 8000 in
theorem test_crc8_check_value : digits.foldl (crcByte 8 0x07 false) 0 = 0xF4 := by decide

/-- One sample is due in monitor 7, whose bin 15 is full or empty. -/
def sampled (bin : BitVec 16) : State :=
  let m : Monitor := ⟨0x7FFFFF, 0x800000, 0, 0, Vector.replicate 16 bin⟩
  { inMode .run with tally := { mons := vset State.reset.tally.mons 7 m, due := [⟨7, 0x7FFFFF, 0, 0⟩] } }

theorem witness_TallyMonitorsComplete :
    Open (inMode .run) .slack (Reg.mon 7 0) ∧ fld (0x26E00000 : Word) 29 26 = 9 ∧ fld (0x26E00000 : Word) 25 21 = 23
    ∧ argLegal 9 (fld (0x26E00000 : Word) 7 0) = true ∧ (sampled 65535).tally.due = [⟨7, 0x7FFFFF, 0, 0⟩]
    ∧ (vget ((sampled 65535).tally.mons[(7 : Fin 8)]).bins 15 0).toNat = 65535 ∧ (vget ((sampled 65534).tally.mons[(7 : Fin 8)]).bins 15 0).toNat < 65535
    ∧ (inMode .run).tally.due = [] := by
  refine ⟨open_of (by decide), ?_⟩; decide

/-- The next sink of the diagnostics sweep is 23, whose latch has a code and a duty; or its step is in progress. -/
def sweeps (duty : Nat) (step : Option Nat) : State :=
  let s := withReg (Reg.snkCfg 23) 0xA0000000 (withReg Reg.snkGlobal 0x80010020 (inMode .run))
  { s with light := { s.light with latch := vset s.light.latch 23 ⟨5, duty, true, false, 256⟩, step := step, lastCh := 22 } }

theorem witness_LightEventsComplete :
    (inMode .run).power.factory = false ∧ slackMode (inMode .run).power.mode = true
    ∧ getB (withReg (Reg.snkNtc 0) 0 (inMode .run)) (Reg.snkNtc 0) 31 = false ∧ (inMode .run).light.fNext = 256
    ∧ (100 ≤ 145 ∧ (145 : Nat) ≤ 145) ∧ (1450 : Int) ≤ 10 * 145 ∧ (10 * 145 : Int) < 1451 ∧ (1499 : Int) < 1500
    ∧ (inMode .off).power.mode = .off ∧ (130001 > 130000 ∧ 14999 < 15000 ∧ 15000 ≤ 15000 ∧ 130000 ≤ 130000)
    ∧ sweepRuns (sweeps 512 none) = true ∧ diagNext (sweeps 512 none) = some 23 ∧ (sweeps 512 none).light.gapLeft = 0
    ∧ (vget (sweeps 512 none).light.latch 23 ⟨255, 0, false, false, 256⟩).duty ≥ 512
    ∧ (vget (sweeps 511 none).light.latch 23 ⟨255, 0, false, false, 256⟩).duty < 512 ∧ (sweeps 511 none).light.waiting = []
    ∧ sweepRuns (inMode .limp) = false ∧ (sweeps 512 (some 23)).light.step = some 23 ∧ (sweeps 512 (some 23)).light.sampled = false
    ∧ (0x20 : BitVec 12).toNat ≥ getF (sweeps 512 none) Reg.snkGlobal 7 0 ∧ (0x1F : BitVec 12).toNat < getF (sweeps 512 none) Reg.snkGlobal 7 0 := by
  decide

/-- The output converter with Port A as a slave, in a state. -/
def asr (st : AsrState) : State :=
  let s := withReg Reg.audACfg 0x80000000 (inMode .run)
  { s with audio := { s.audio with asrOut := { Asr.init with st := st } } }

theorem witness_AudioEventsComplete :
    (22369621 ≤ (0x80000000 : Word).toNat ∧ (0x80000000 : Word).toNat ≤ 2 ^ 31) ∧ ¬(22369621 ≤ (22369620 : Word).toNat)
    ∧ (asrOf (asr .off) true).st = .off ∧ (asrOf (asr .acquiring) true).st = .acquiring ∧ (asrOf (asr .locked) true).st = .locked
    ∧ asrUsed (inMode .off) true = false ∧ getB (asr .locked) Reg.cltLogHead 22 = false ∧ (asr .locked).cleat.queue = []
    ∧ (0x800000 : Cell).msb = true ∧ (0x00FFFF : Cell).msb = false ∧ (0x7FFF7F : Cell).toInt ≤ 8388479 ∧ (0x7FFF80 : Cell).toInt > 8388479 := by
  decide

theorem test_gain_and_slot :
    gainSample 0x008000 0x400000 = 0x400000 ∧ gainSample 0x00FFFF 0x7FFFFF = 0x7FFFFF ∧ gainSample 0x808000 0x400000 = 0
    ∧ slotCell 16 0x000080 = 0x000100 ∧ slotCell 16 0x7FFFFF = 0x7FFF00 := by decide

/-! ### The events of a frame, and the MODE command -/

/-- Channel 2 is a running chain feed to code 7 of a manager. -/
def feeds (m : Mode) : State :=
  let s := withReg (Reg.rel 2 0) 0xC0000000 (withReg (Reg.rel 2 2) 7 (withReg (Reg.rel 2 3) 4
    (withReg Reg.ropCfg 0x80000F08 (ticking m))))
  setChan { s with clock := { s.clock with lightDue := true } } 2 { chan s 2 with st := .running }

/-- Event 3 has been pending for 64 ticks, and is logged or not. -/
def starved (logged : Bool) : State :=
  let s := withReg Reg.layEvtPend 8 (withReg Reg.layEvtEn 8 (inMode .run))
  { s with events := { s.events with age := vset s.events.age 3 64, logged := vset s.events.logged 3 logged } }

/-- A START pulse has ended the frame. -/
def pulsed : State := { follower with clock := { follower.clock with startDue := true } }

theorem witness_LightTickOverrunStarvedStartPulseAndModeComplete :
    PlainTick (ticking .run) ∧ PlainTick pulsed ∧ Settled follower ∧ layDriven (sweeps 512 none) 23 ∧ pulsed.clock.startDue = true
    ∧ (feeds .run).clock.holdDue = false ∧ (feeds .run).clock.lightDue = true ∧ (feeds .run).rom.code = none
    ∧ (feeds .run).light.step = none ∧ (feeds .run).mem.ecc = [] ∧ (feeds .run).light.handover = none
    ∧ (feeds .run).power.mode ∈ [Mode.run, .workshop, .quiesce] ∧ (feeds .workshop).power.mode ∈ [Mode.run, .workshop, .quiesce]
    ∧ (chan (feeds .run) 2).st = .running ∧ chKind (feeds .run) 2 = 2 ∧ (chan (feeds .run) 2).sending = false
    ∧ getB (feeds .run) Reg.ropCfg 31 = true
    ∧ layRuns.lay.inLay = true ∧ layRuns.lay.stepping = false ∧ layRuns.clock.slot ≤ fence layRuns ∧ fence layRuns < layRuns.clock.frameLen
    ∧ layRuns.power.factory = false ∧ tickDue layRuns = false
    ∧ starving (starved false) 3 = true ∧ (∀ k, k < 22 → k ≠ 3 → starving (starved false) k = false)
    ∧ starving (starved true) 3 = false ∧ (starved false).cleat.queue = [] ∧ getB (starved false) Reg.cltLogHead 22 = false
    ∧ getF follower Reg.ropCfg 29 28 = 1 ∧ follower.power.mode = .workshop ∧ frameTicks follower = true ∧ follower.clock.startDue = false
    ∧ twbAnswers (pecOn .run) = true ∧ (pecOn .run).power.mode ≠ .raise ∧ getB (pecOn .run) Reg.twbCfg 28 = true
    ∧ modePec (pecOn .run) 1 ≠ modePec (pecOn .run) 2
    ∧ twbAnswers (inMode .raise) = true ∧ (inMode .raise).power.mode = .raise ∧ twbAnswers (inMode .off) = false := by
  refine ⟨plain_run, ⟨by decide, ⟨rfl, rfl, rfl, by decide⟩, rfl, rfl, rfl, rfl⟩, ⟨rfl, rfl, rfl, by decide⟩,
    ⟨by decide, by decide⟩, ?_⟩
  decide

end Sys2Proof.Tests
end

section
/-! SUPPORT. What a mode change, entry to LIMP and a start attempt change and what they leave alone (R154, R165, R168,
R188, R189), and the statement on the start window, the PLL's lock and the start attempt (O28).

A lemma f_shape gives the state after f as the state before it with the parts that f may change; a lemma getReg_f, the
registers that f does not write. -/

namespace Sys2Proof.Machine
open Claim

variable {s : State} {m : Mode} {r : Reason} {imm : Bool} {q k e : Nat} {f : Cell → Cell}

/-! ### The parts that an operation may change -/

theorem pinSettle_shape : ∃ regs low hold,
    pinSettle s = { s with regs := regs, cleat := { s.cleat with pinLow := low, pinHold := hold } }
    ∧ ∀ q, q ≠ Reg.sysFaultPin → getReg { s with regs := regs } q = getReg s q := by
  obtain ⟨t, ht, ⟨regs, rfl⟩, hq⟩ : ∃ t, (if pinModes s.power.mode && pinSourced s && getB s Reg.sysFaultPin 14
      then setB s Reg.sysFaultPin 13 true else s) = t ∧ (∃ regs, t = { s with regs := regs })
      ∧ ∀ q, q ≠ Reg.sysFaultPin → getReg t q = getReg s q := by
    split
    · exact ⟨_, rfl, ⟨_, rfl⟩, fun q h => getReg_setB_other h⟩
    · exact ⟨_, rfl, ⟨_, rfl⟩, fun _ _ => rfl⟩
  unfold pinSettle
  dsimp only
  rw [ht]
  split <;> split <;> exact ⟨_, _, _, rfl, hq⟩

theorem sysEvent_shape : ∃ regs events, sysEvent s k = { s with regs := regs, events := events } := by
  unfold sysEvent
  dsimp only
  split <;> exact ⟨_, _, rfl⟩

theorem enterMode_shape : ∃ regs events low hold, enterMode s m = { s with
    regs := regs, events := events, cleat := { s.cleat with pinLow := low, pinHold := hold }
    power := { s.power with prev := s.power.mode, mode := m } } := by
  unfold enterMode
  obtain ⟨_, _, he⟩ := sysEvent_shape
  rw [he]
  obtain ⟨_, _, _, hp, -⟩ := pinSettle_shape
  exact ⟨_, _, _, _, hp⟩

theorem diagEnd_shape : ∃ regs light, diagEnd s = { s with regs := regs, light := light } := by
  have writes (l : List (Nat × Word)) : ∀ t : State,
      ∃ regs, l.foldl (fun t e => setReg t e.1 e.2) t = { t with regs := regs } := by
    induction l with
    | nil => exact fun t => ⟨_, rfl⟩
    | cons w l ih => exact fun t => ih (setReg t w.1 w.2)
  unfold diagEnd
  split
  · exact ⟨_, _, rfl⟩
  · obtain ⟨_, hw⟩ := writes s.light.waiting s
    exact ⟨_, _, by rw [hw]⟩

theorem changeMode_shape : ∃ regs events light low hold, changeMode s m = { s with
    regs := regs, events := events, light := light, cleat := { s.cleat with pinLow := low, pinHold := hold }
    lay := { s.lay with stepping := false }, clock := { s.clock with holdDue := false }
    power := { s.power with prev := s.power.mode, mode := m } } := by
  obtain ⟨_, _, hd⟩ := diagEnd_shape (s := s)
  unfold changeMode
  dsimp only
  rw [hd]
  split <;> split <;>
  · obtain ⟨_, _, _, _, he⟩ := enterMode_shape
    exact ⟨_, _, _, _, _, he⟩

theorem romEnded_shape : ∃ romEnd ended, romEnded s = { s with
    lay := { s.lay with romEnd := romEnd, endedAt := ended } } := by
  unfold romEnded
  split <;> exact ⟨_, _, rfl⟩

theorem dropRequest_shape : ∃ regs, dropRequest s = { s with
    regs := regs, power := { s.power with pendingReq := none } } := by
  unfold dropRequest
  split
  next => exact ⟨_, rfl⟩
  next h =>
    have hp : s.power.pendingReq = none := Option.not_isSome_iff_eq_none.1 fun hp => h (by rw [hp]; rfl)
    exact ⟨s.regs, by rw [← hp]⟩

theorem stopPrograms_shape : ∃ romEnd ended, stopPrograms s = { s with
    lay := { s.lay with romEnd := romEnd, endedAt := ended, inLay := false, slackOn := false }
    cleat := { s.cleat with wdogOn := false } } := by
  obtain ⟨_, _, hr⟩ := romEnded_shape (s := s)
  unfold stopPrograms
  rw [hr]
  exact ⟨_, _, rfl⟩

/-! ### Registers -/

theorem getReg_withLight {l : Light} : getReg { s with light := l } q = getReg s q := rfl

theorem getReg_pinSettle (h : q ≠ Reg.sysFaultPin) : getReg (pinSettle s) q = getReg s q := by
  obtain ⟨_, _, _, hs, hr⟩ := pinSettle_shape (s := s)
  rw [hs]
  exact hr q h

theorem getReg_postEvent (h : q ≠ Reg.layEvtPend) : getReg (postEvent s e f) q = getReg s q := by
  unfold postEvent
  dsimp only
  rw [getReg_setB_other h]
  rfl

theorem getReg_sysEvent (he : q ≠ Reg.sysEvents) (hp : q ≠ Reg.layEvtPend) : getReg (sysEvent s k) q = getReg s q := by
  unfold sysEvent
  dsimp only
  split
  · rw [getReg_postEvent hp, getReg_setB_other he]
  · rw [getReg_setB_other he]

/-- The registers that a mode change may write. -/
def modeRegs : List Nat := [Reg.sysEvents, Reg.layEvtPend, Reg.sysFaultPin, Reg.layCtrl]

theorem getReg_enterMode (hq : q ∉ modeRegs) : getReg (enterMode s m) q = getReg s q := by
  simp only [modeRegs, List.mem_cons, List.not_mem_nil, not_or] at hq
  obtain ⟨he, hp, hf, -⟩ := hq
  exact (getReg_pinSettle hf).trans (getReg_sysEvent he hp)

theorem getReg_diagEnd (hw : s.light.waiting = []) : getReg (diagEnd s) q = getReg s q := by
  unfold diagEnd
  split
  · rfl
  · simp only [hw]; rfl

theorem getReg_changeMode (hw : s.light.waiting = []) (hq : q ∉ modeRegs) : getReg (changeMode s m) q = getReg s q := by
  have hl : q ≠ Reg.layCtrl := by rintro rfl; exact hq (by decide)
  have hd : getReg (if m == .run || m == .holdover || m == .workshop then s else diagEnd s) q = getReg s q := by
    split
    · rfl
    · exact getReg_diagEnd hw
  unfold changeMode
  dsimp only
  rw [getReg_enterMode hq]
  split
  · exact hd
  · exact (getReg_setF_other hl).trans hd

theorem getReg_fsReload (hq : q ∉ [Reg.snkFs 0, Reg.snkFs 1, Reg.snkFs 2]) : getReg (fsReload s) q = getReg s q := by
  simp only [List.mem_cons, List.not_mem_nil, not_or] at hq
  obtain ⟨h0, h1, h2, -⟩ := hq
  unfold fsReload
  dsimp only [List.foldl_cons, List.foldl_nil]
  rw [getReg_withLight, getReg_setReg_other h2, getReg_setReg_other h1, getReg_setReg_other h0]

theorem getReg_dropOverride (h : q ≠ Reg.strOverride) : getReg (dropOverride s) q = getReg s q :=
  getReg_setReg_other (s := s) (w := 0) h

@[simp] theorem strOverride_dropOverride : getReg (dropOverride s) Reg.strOverride = 0 :=
  getReg_setReg (s := s) (r := Reg.strOverride) (w := 0)

theorem getReg_dropRequest (h : q ≠ Reg.sysModeReq) : getReg (dropRequest s) q = getReg s q := by
  unfold dropRequest
  split
  · exact getReg_setF_other h
  · rfl

theorem getReg_stopPrograms : getReg (stopPrograms s) q = getReg s q := by
  obtain ⟨_, _, hs⟩ := stopPrograms_shape (s := s)
  rw [hs]
  rfl

/-! ### FAULT# -/

theorem pinSettle_pinLow (h : s.power.mode = .raise ∨ s.power.mode = .limp) : (pinSettle s).cleat.pinLow = true := by
  have hm : pinModes s.power.mode = false := by rcases h with h | h <;> rw [h] <;> rfl
  have hw : pinWanted s = true := by rcases h with h | h <;> simp only [pinWanted, h]
  simp only [pinSettle, hm, hw, Bool.false_and, Bool.false_eq_true, if_false, if_true]
  split
  · assumption
  · rfl

theorem changeMode_pinLow (h : m = .raise ∨ m = .limp) : (changeMode s m).cleat.pinLow = true := by
  unfold changeMode
  dsimp only
  unfold enterMode
  obtain ⟨_, _, he⟩ := sysEvent_shape
  apply pinSettle_pinLow
  rw [he]
  exact h

/-! ### Entry to LIMP -/

/-- The registers that entry to LIMP may write, SYS_REASON and STR_OVERRIDE apart. -/
def limpRegs : List Nat := modeRegs ++ [Reg.sysModeReq, Reg.snkFs 0, Reg.snkFs 1, Reg.snkFs 2]

/-- All that entry to LIMP does from s is done in t, but the mode change (R188, R189). -/
structure LimpReady (s : State) (r : Reason) (imm : Bool) (t : State) : Prop where
  mode : t.power.mode = s.power.mode
  pendingReq : t.power.pendingReq = none
  hotFs : t.power.hotFs = (r == .thermalShutdown)
  window : t.power.windowOpen = s.power.windowOpen
  inLay : t.lay.inLay = false
  slackOn : t.lay.slackOn = false
  wdogOn : t.cleat.wdogOn = false
  out : t.audio.out = Vector.replicate 16 0
  rom : t.rom = RomLay.init
  mem : t.mem = s.mem
  straps : t.straps = s.straps
  map : t.map = s.map
  splice : t.splice = s.splice
  tally : t.tally = s.tally
  whip : t.whip = s.whip
  waiting : t.light.waiting = s.light.waiting
  override : getReg t Reg.strOverride = 0
  regs : ∀ q, q ≠ Reg.strOverride → q ∉ limpRegs →
    getReg t q = getReg (setF (if imm then setLastFail s r else s) Reg.sysReason 7 0 (reasonNo r)) q

theorem limpEnter_eq_changeMode : ∃ t, limpEnter s r imm = changeMode t .limp ∧ LimpReady s r imm t := by
  obtain ⟨u, hu, hus⟩ : ∃ u, setF (if imm then setLastFail s r else s) Reg.sysReason 7 0 (reasonNo r) = u
      ∧ ∃ regs, u = { s with regs := regs } := by
    refine ⟨_, rfl, ?_⟩
    cases imm <;> exact ⟨_, rfl⟩
  have regs : ∀ q, q ≠ Reg.strOverride → q ∉ limpRegs →
      getReg (fsReload (dropOverride (dropRequest (stopPrograms (clearDue u))))) q = getReg u q := by
    intro q ho hq
    simp only [limpRegs, List.mem_append, List.mem_cons (b := Reg.sysModeReq), not_or] at hq
    obtain ⟨-, hr, hf⟩ := hq
    rw [getReg_fsReload hf, getReg_dropOverride ho, getReg_dropRequest hr, getReg_stopPrograms]
    rfl
  have override : getReg (fsReload (dropOverride (dropRequest (stopPrograms (clearDue u))))) Reg.strOverride = 0 :=
    (getReg_fsReload (by decide)).trans strOverride_dropOverride
  obtain ⟨_, _, hs⟩ := stopPrograms_shape (s := clearDue u)
  obtain ⟨_, hd⟩ := dropRequest_shape (s := stopPrograms (clearDue u))
  rw [hd, hs] at regs override
  obtain ⟨_, rfl⟩ := hus
  unfold limpEnter
  dsimp only
  rw [hu, hd, hs]
  refine ⟨_, rfl, ?_⟩
  constructor
  case regs => rw [hu]; exact regs
  case override => exact override
  all_goals rfl

theorem reasonNo_lt : reasonNo r < 256 := by cases r <;> decide

theorem limpEnter_sysReason (hw : s.light.waiting = []) :
    getReg (limpEnter s r imm) Reg.sysReason
      = getReg (setF (if imm then setLastFail s r else s) Reg.sysReason 7 0 (reasonNo r)) Reg.sysReason := by
  obtain ⟨t, ht, ready⟩ := limpEnter_eq_changeMode (s := s) (r := r) (imm := imm)
  rw [ht, getReg_changeMode (ready.waiting.trans hw) (by decide), ready.regs _ (by decide) (by decide)]

theorem limpEnter_limpReason (hw : s.light.waiting = []) : getF (limpEnter s r imm) Reg.sysReason 7 0 = reasonNo r := by
  rw [getF, limpEnter_sysReason hw, ← getF, getF_setF (by decide) (by decide)]
  exact Nat.mod_eq_of_lt reasonNo_lt

theorem limpEnter_lastFail (hw : s.light.waiting = []) :
    getF (limpEnter s r true) Reg.sysReason 15 8 = reasonNo r := by
  rw [getF, limpEnter_sysReason hw, ← getF, getF_setF_other (by decide) (by decide) (by decide), if_pos rfl, setLastFail,
    getF_setF (by decide) (by decide)]
  exact Nat.mod_eq_of_lt reasonNo_lt

theorem vget_replicate {α : Type} {n : Nat} {x : α} : vget (Vector.replicate n x) k x = x := by
  rw [vget, Vector.toList_replicate, List.getD_eq_getElem?_getD, List.getElem?_replicate]
  split <;> rfl

theorem limpEnter_limped (hw : s.light.waiting = []) : Limped s (reasonNo r) (limpEnter s r imm) := by
  have reason := limpEnter_limpReason (r := r) (imm := imm) hw
  obtain ⟨t, ht, ready⟩ := limpEnter_eq_changeMode (s := s) (r := r) (imm := imm)
  have override : getReg (changeMode t .limp) Reg.strOverride = 0 :=
    (getReg_changeMode (ready.waiting.trans hw) (by decide)).trans ready.override
  have pin : (changeMode t .limp).cleat.pinLow = true := changeMode_pinLow (.inr rfl)
  rw [ht] at reason ⊢
  obtain ⟨_, _, _, _, _, hc⟩ := changeMode_shape (s := t) (m := .limp)
  rw [hc] at reason override pin ⊢
  exact ⟨rfl, ready.mode, reason, ready.inLay, ready.slackOn, ready.wdogOn, pin, override,
    fun k => (congrArg (vget · k 0) ready.out).trans vget_replicate, ready.pendingReq, congrArg RomLay.code ready.rom,
    ready.mem, ready.straps, ready.map, ready.splice, ready.tally, ready.whip⟩

/-! ### The start attempt -/

/-- Step 6 of RAISE has cleared the RAMs, and the X-port's I/O mode is measured. -/
def attemptReady (s : State) : State := clearRams (xpSettle { s with xp := { s.xp with io := ioMode s.power.vddxMv } })

theorem getF_countUp {hi lo : Nat} (hh : hi < 32) (hl : lo ≤ hi) :
    getF (countUp s q hi lo) q hi lo = satInc (getF s q hi lo) (2 ^ (hi + 1 - lo) - 1) := by
  have pos : 0 < 2 ^ (hi + 1 - lo) := by positivity
  have lt : satInc (getF s q hi lo) (2 ^ (hi + 1 - lo) - 1) < 2 ^ (hi + 1 - lo) := by
    unfold satInc
    split <;> omega
  rw [countUp, getF_setF hh hl, Nat.mod_eq_of_lt lt]

theorem msCode_of_role_workshop (h : role s = .workshop) : msCode s = 14 := by
  unfold role at h
  dsimp only at h
  split_ifs at h
  assumption

section
variable {sfdp : Option Sfdp} (hm : s.power.mode = .raise) (ha : s.power.raise = .attempt)
include hm ha

theorem not_outside_attempt : ¬(!(s.power.mode == .raise && s.power.raise == .attempt)) = true := by simp [hm, ha]

theorem exec_startAttempt_bistFailed : exec (.startAttempt false sfdp) s = .next (limpEnter s .ramBist true) :=
  (if_neg (not_outside_attempt hm ha)).trans (if_pos rfl)

theorem exec_startAttempt_workshop (h : s.power.toWorkshop = true ∨ role s = .workshop) :
    exec (.startAttempt true sfdp) s = .next (raiseWorkshop (attemptReady s)) := by
  have hw : (s.power.toWorkshop || role s == .workshop) = true := by simpa using h
  show execStartAttempt true sfdp s = _
  exact (if_neg (not_outside_attempt hm ha)).trans ((if_neg (by decide)).trans (if_pos hw))

theorem exec_startAttempt_strapFault (ht : s.power.toWorkshop = false) (hr : role s ≠ .workshop)
    (hs : strapReason s = some r) : exec (.startAttempt true sfdp) s = .next (limpEnter (attemptReady s) r true) := by
  have hw : ¬(s.power.toWorkshop || role s == .workshop) = true := by simpa [ht] using hr
  show execStartAttempt true sfdp s = _
  refine (if_neg (not_outside_attempt hm ha)).trans ((if_neg (by decide)).trans ((if_neg hw).trans ?_))
  split
  next r' h =>
    obtain rfl : r' = r := Option.some.inj (h.symm.trans hs)
    rfl
  next h => cases h.symm.trans hs

/-- Without a flash slot among them, the boot sources of MS are tried with device 0 undiscovered. -/
theorem exec_startAttempt_boot (ht : s.power.toWorkshop = false) (hr : role s ≠ .workshop) (hs : strapReason s = none)
    (hb : (bootSources (msCode s)).contains .slotA = false) : exec (.startAttempt true sfdp) s
      = .next (tryBoot (countUp (attemptReady s) Reg.sysStartCount 15 8) (bootSources (msCode s))) := by
  have hw : ¬(s.power.toWorkshop || role s == .workshop) = true := by simpa [ht] using hr
  show execStartAttempt true sfdp s = _
  refine (if_neg (not_outside_attempt hm ha)).trans ((if_neg (by decide)).trans ((if_neg hw).trans ?_))
  split
  next h => cases h.symm.trans hs
  next =>
    exact congrArg (fun u => Host.Outcome.next (tryBoot u (bootSources (msCode s)))) (if_neg (ne_true_of_eq_false hb))

end

theorem raiseWorkshop_shape : ∃ regs events light low hold, raiseWorkshop s = { s with
    regs := regs, events := events, light := light, cleat := { s.cleat with pinLow := low, pinHold := hold }
    lay := Lay.init, clock := { s.clock with holdDue := false }
    power := { s.power with toWorkshop := false, prev := s.power.mode, mode := .workshop } } := changeMode_shape

theorem getReg_readyForLay : getReg (readyForLay s) q = getReg s q := rfl

theorem getReg_setBoot {src variant : Nat} (h : q ≠ Reg.sysStatus) : getReg (setBoot s src variant) q = getReg s q :=
  (getReg_setF_other h).trans (getReg_setF_other h)

theorem getF_setBoot_source {src variant : Nat} : getF (setBoot s src variant) Reg.sysStatus 19 16 = src % 16 :=
  (getF_setF_other (by decide) (by decide) (by decide)).trans (getF_setF (by decide) (by decide))

theorem getReg_bootRom (h : q ≠ Reg.sysStatus) : getReg (bootRom s) q = getReg s q := by
  unfold bootRom
  dsimp only
  rw [getReg_readyForLay, getReg_setBoot h]
  rfl

theorem getF_bootRom_source : getF (bootRom s) Reg.sysStatus 19 16 = 3 := by
  unfold bootRom
  dsimp only
  rw [getF, getReg_readyForLay, ← getF, getF_setBoot_source]

/-- The rope is a boot source of workers only (Table 4.7). -/
theorem role_ne_workshop_of_rope (h : bootSources (msCode s) = [.rope]) : role s ≠ .workshop := by
  intro hr
  rw [msCode_of_role_workshop hr] at h
  exact absurd h (by decide)

/-! ### The obligation -/

theorem startWindowClose_of_open (h : s.power.windowOpen = true) :
    Does .startWindowClose s (fun t => t.power.windowOpen = false
      ∧ getF t Reg.sysStartCount 3 0
        = (if getF s Reg.sysStartCount 3 0 < s.power.startLimit then 0 else getF s Reg.sysStartCount 3 0)
      ∧ (∀ r, r ≠ Reg.sysStartCount → getReg t r = getReg s r) ∧ t.lay = s.lay ∧ t.mem = s.mem
      ∧ t.power.mode = s.power.mode) := by
  by_cases hl : getF s Reg.sysStartCount 3 0 < s.power.startLimit
  · refine ⟨_, (if_pos h).trans (congrArg Host.Outcome.next (if_pos hl)), rfl, ?_, fun r hr => ?_, rfl, rfl, rfl⟩
    · rw [if_pos hl]
      exact getF_setF (by decide) (by decide)
    · rw [getReg_setF_other hr]
      rfl
  · exact ⟨_, (if_pos h).trans (congrArg Host.Outcome.next (if_neg hl)), rfl, (if_neg hl).symm, fun _ _ => rfl, rfl,
      rfl, rfl⟩

theorem pllLock_of_raise (hm : s.power.mode = .raise) (hr : s.power.raise = .pll) :
    Does .pllLock s (fun t => frameNo t = 0 ∧ t.clk.locked = true
      ∧ t.power.raise = .attempt ∧ t.clock.slot = 0 ∧ t.clock.frameLen = budget s
      ∧ (∀ r, r ≠ Reg.sysFrame → getReg t r = getReg s r) ∧ t.lay = s.lay ∧ t.mem = s.mem) := by
  refine ⟨_, if_pos (by simp [hm, hr]), ?_⟩
  exact ⟨getReg_setReg (s := s) (r := Reg.sysFrame) (w := 0), rfl, rfl, rfl, rfl,
    fun _ h => getReg_setReg_other (s := s) (w := 0) h, rfl, rfl⟩

section
variable {sfdp : Option Sfdp} (hm : s.power.mode = .raise) (ha : s.power.raise = .attempt)
include hm ha

theorem startAttempt_bistFailed (hw : NoSinkWrites s) : Does (.startAttempt false sfdp) s
    (fun t => Limped s 0x0C t ∧ getF t Reg.sysReason 15 8 = 0x0C) :=
  ⟨_, exec_startAttempt_bistFailed hm ha, limpEnter_limped hw, limpEnter_lastFail hw⟩

theorem startAttempt_workshop (h : s.power.toWorkshop = true ∨ role s = .workshop) : Does (.startAttempt true sfdp) s
    (fun t => t.power.mode = .workshop ∧ t.power.prev = .raise ∧ t.power.toWorkshop = false ∧ t.lay = Lay.init
      ∧ t.mem.deck = [] ∧ t.mem.strand = [] ∧ t.mem.ext = s.mem.ext) := by
  refine ⟨_, exec_startAttempt_workshop hm ha h, ?_⟩
  obtain ⟨_, _, _, _, _, hs⟩ := raiseWorkshop_shape (s := attemptReady s)
  rw [hs]
  exact ⟨rfl, hm, rfl, rfl, rfl, rfl, rfl⟩

theorem startAttempt_strapFault (hw : NoSinkWrites s) (ht : s.power.toWorkshop = false) (hr : role s ≠ .workshop)
    (hs : strapReason s = some r) : Does (.startAttempt true sfdp) s (fun t => t.power.mode = .limp ∧ t.power.prev = .raise
      ∧ getF t Reg.sysReason 7 0 = reasonNo r ∧ t.straps = s.straps) := by
  refine ⟨_, exec_startAttempt_strapFault hm ha ht hr hs, ?_⟩
  obtain ⟨mode, prev, reason, -, -, -, -, -, -, -, -, -, straps, -⟩ :=
    limpEnter_limped (s := attemptReady s) (r := r) (imm := true) hw
  exact ⟨mode, prev.trans hm, reason, straps⟩

theorem startAttempt_rom (ht : s.power.toWorkshop = false) (hr : role s ≠ .workshop) (hs : strapReason s = none)
    (hb : bootSources (msCode s) = [.rom]) : Does (.startAttempt true sfdp) s (fun t => t.power.mode = .raise
      ∧ t.power.raise = .firstFrame ∧ t.rom.code = some (romLay s)
      ∧ getF t Reg.sysStatus 19 16 = 3 ∧ t.mem.deck = [] ∧ t.mem.ext = s.mem.ext
      ∧ getF t Reg.sysStartCount 15 8
        = (if getF s Reg.sysStartCount 15 8 ≥ 255 then 255 else getF s Reg.sysStartCount 15 8 + 1)
      ∧ (∀ r, r ≠ Reg.sysStatus → r ≠ Reg.sysStartCount → getReg t r = getReg s r)) := by
  have he := exec_startAttempt_boot (sfdp := sfdp) hm ha ht hr hs (by rw [hb]; rfl)
  rw [hb] at he
  refine ⟨bootRom (countUp (attemptReady s) Reg.sysStartCount 15 8), he, hm, rfl, rfl, getF_bootRom_source, rfl, rfl, ?_,
    fun q hq hc => ?_⟩
  · rw [getF, getReg_bootRom (by decide), ← getF, getF_countUp (by decide) (by decide)]
    rfl
  · rw [getReg_bootRom hq, getReg_countUp_other hc]
    rfl

theorem startAttempt_rope (ht : s.power.toWorkshop = false) (hs : strapReason s = none)
    (hb : bootSources (msCode s) = [.rope]) : Does (.startAttempt true sfdp) s (fun t => t.power.mode = .raise
      ∧ t.power.raise = .ropeWait ∧ t.rom = s.rom ∧ t.mem.deck = []) := by
  have he := exec_startAttempt_boot (sfdp := sfdp) hm ha ht (role_ne_workshop_of_rope hb) hs (by rw [hb]; rfl)
  rw [hb] at he
  exact ⟨_, he, hm, rfl, rfl, rfl⟩

end

/-- Settles O28: each outcome of a start attempt is the one that its branch of START_ATTEMPT names (R168, R182). -/
theorem windowPllLockAndStartAttempt : Obligations.WindowPllLockAndStartAttempt := by
  unfold Obligations.WindowPllLockAndStartAttempt
  refine ⟨fun s h => startWindowClose_of_open h, fun s h => if_neg (ne_true_of_eq_false h),
    fun s hm hr => pllLock_of_raise hm hr, fun s h => if_neg ?_, fun s sfdp hm ha hw => ?_⟩
  · rcases h with h | h <;> simp [h]
  · exact ⟨startAttempt_bistFailed hm ha hw, startAttempt_workshop hm ha,
      fun r ht hr hs => startAttempt_strapFault hm ha hw ht hr hs, startAttempt_rom hm ha,
      fun hb hs ht => startAttempt_rope hm ha ht hs hb⟩

end Sys2Proof.Machine
end

section
/-! SUPPORT. How B<cc>, CALL and RET issue, how an instruction that its context forbids is annulled, and the statement on
branches (O18; R354, R363 to R369, R422). -/

namespace Sys2Proof.Machine
open Claim

variable {s : State} {lay : Bool} {w : Work} {f : Form} {mk : Bool → Ctx → Issue} {plan : Run Effect}

/-! ### A plan without operands -/

section issues
variable (hi : Issues s lay f (pure () : Run Unit) () w)
include hi

theorem fetchCheck_of_issues : (fetchCheck lay (formLen f)).run.run { st := s, stall := 0 } = (.ok (), w) := by
  obtain ⟨_, _, hf, hp⟩ := run_bind_inv hi.found
  cases hp
  exact hf

/-- A plan that runs to its end after the fetch has its effect at the start of the slot (R429). -/
theorem issue_of_plan_runs {word : Word} {eff : Effect} (hm : mk lay (ctxOf s lay) = ⟨word, formLen f, plan⟩)
    (hp : plan.run.run w = (.ok eff, w)) :
    issue s mk = finish (eff (slotStart w)).1 lay (formLen f) (eff (slotStart w)).2 := by
  refine issue_runs hi.turn (by rw [hm]) hi.whole hi.early ?_
  rw [hm, run_bind_ok (fetchCheck_of_issues hi)]
  exact hp

/-- A plan that stops after the fetch annuls its instruction (R431). -/
theorem issue_of_plan_stops {word d : Word} {code : FaultCode} {va : Option Nat}
    (hm : mk lay (ctxOf s lay) = ⟨word, formLen f, plan⟩) (hp : plan.run.run w = (.error (.fault code d va), w)) :
    issue s mk = annul (slotStart w) lay (formLen f) code d va := by
  refine issue_annuls hi.turn (by rw [hm]) hi.whole hi.early ?_
  rw [hm, run_bind_ok (fetchCheck_of_issues hi)]
  exact hp

/-- A plan whose legality check fails annuls its instruction with the first word (R402). -/
theorem issue_of_require_not {opc : Nat} {ok : Bool} {k : Unit → Run Effect}
    (hm : mk lay (ctxOf s lay) = ⟨firstWord opc f, formLen f, require opc f ok >>= k⟩) (hok : ok = false) :
    issue s mk = annul (slotStart w) lay (formLen f) .illegalOp (firstWord opc f) none := by
  subst hok
  rw [issue_of_plan_stops hi hm (run_bind_error run_require_not), BitVec.ofNat_toNat, BitVec.setWidth_eq]

/-- A plain instruction that its context allows has its effect. -/
theorem execPlain_runs {opc : Nat} {ok : Bool → Ctx → Bool} {eff : Bool → Effect}
    (hok : (!isLong f && ok lay (ctxOf s lay)) = true) :
    execPlain opc f ok eff s = finish (eff lay (slotStart w)).1 lay (formLen f) (eff lay (slotStart w)).2 := by
  refine issue_of_plan_runs hi rfl ?_
  rw [hok, run_bind_ok run_require]
  rfl

end issues

/-! ### CALL and RET outside a delay slot -/

/-- The slot of a CALL: the address after its delay slot goes on the Coil, and the branch is taken up (R366, R368). -/
def callEffect (f : Form) (lay : Bool) : Effect := fun s =>
  let e := passSlots s 1
  (onCtx e lay (fun c => { c with coil := ((c.pc + 2) :: c.coil).take 8 }),
    { branch := some ⟨(ctxOf e lay).pc, targetOf f, false, true, true⟩ })

/-- The slot of a RET to t: the Coil loses its top, and the branch is taken up (R369). -/
def retEffect (t : PAddr) (lay : Bool) : Effect := fun s =>
  let e := passSlots s 1
  (onCtx e lay (fun c => { c with coil := c.coil.drop 1 }),
    { branch := some ⟨(ctxOf e lay).pc, t, false, false, true⟩ })

section plans
variable {c : Ctx} (hf : isLong f = false) (hb : c.branch = none)
include hf hb

theorem legal_outside_delay_slot : (!isLong f && c.branch.isNone) = true := by
  rw [hf, hb]
  rfl

theorem callPlan_runs (hc : c.coil.length < 8 ∨ coilTraps w.st lay = false) :
    (callPlan f lay c).run.run w = (.ok (callEffect f lay), w) := by
  have room : (decide (c.coil.length ≥ 8) && coilTraps w.st lay) = false := by
    rcases hc with hc | hc
    · rw [decide_eq_false (Nat.not_le.mpr hc), Bool.false_and]
    · rw [hc, Bool.and_false]
  unfold callPlan
  rw [legal_outside_delay_slot hf hb, run_bind_ok run_require, run_bind_ok run_readSt, room]
  rfl

theorem callPlan_overflows (hc : c.coil.length ≥ 8) (ht : coilTraps w.st lay = true) :
    (callPlan f lay c).run.run w = (.error (.fault .coilOverflow 8 none), w) := by
  unfold callPlan
  rw [legal_outside_delay_slot hf hb, run_bind_ok run_require, run_bind_ok run_readSt, decide_eq_true hc, ht]
  rfl

theorem retPlan_runs {t : PAddr} {ts : List PAddr} (hc : c.coil = t :: ts) :
    (retPlan f lay c).run.run w = (.ok (retEffect t lay), w) := by
  unfold retPlan
  rw [legal_outside_delay_slot hf hb, run_bind_ok run_require, hc]
  rfl

theorem retPlan_underflows (hc : c.coil = []) :
    (retPlan f lay c).run.run w = (.error (.fault .coilUnderflow 0 none), w) := by
  unfold retPlan
  rw [legal_outside_delay_slot hf hb, run_bind_ok run_require, hc]
  rfl

end plans

/-! ### The commands -/

theorem firstWord_short {opc : Nat} {aux : BitVec 2} {x y : BitVec 12} (h : opc < 32) : firstWord opc (.short aux x y)
    = BitVec.ofNat 32 (opc * 2 ^ 26 + aux.toNat * 2 ^ 24 + x.toNat * 2 ^ 12 + y.toNat) := by
  rw [firstWord, Nat.mod_eq_of_lt h]

section short
variable {aux : BitVec 2} {x y : BitVec 12} (hi : Issues s lay (.short aux x y) (pure () : Run Unit) () w)
include hi

theorem exec_bcc (hb : (ctxOf s lay).branch = none) : exec (.bcc (.short aux x y)) s
    = .next (finish (passSlots (slotStart w) 1) lay 1 { branch := some ⟨(ctxOf (slotStart w) lay).pc,
      targetOf (.short aux x y), true, false, condHolds (x.toNat / 256) (ctxOf (slotStart w) lay)⟩ }) :=
  congrArg Host.Outcome.next (execPlain_runs hi (by rw [hb]; rfl))

theorem exec_call (hb : (ctxOf s lay).branch = none)
    (hc : (ctxOf s lay).coil.length < 8 ∨ coilTraps w.st lay = false) : exec (.call (.short aux x y)) s
    = .next (finish (onCtx (passSlots (slotStart w) 1) lay (fun c => { c with coil := ((c.pc + 2) :: c.coil).take 8 })) lay 1
      { branch := some ⟨(ctxOf (passSlots (slotStart w) 1) lay).pc, targetOf (.short aux x y), false, true, true⟩ }) :=
  congrArg Host.Outcome.next (issue_of_plan_runs hi rfl (callPlan_runs rfl hb hc))

theorem exec_call_overflow (hb : (ctxOf s lay).branch = none) (hc : (ctxOf s lay).coil.length ≥ 8)
    (ht : coilTraps w.st lay = true) :
    exec (.call (.short aux x y)) s = .next (annul (slotStart w) lay 1 .coilOverflow 8 none) :=
  congrArg Host.Outcome.next (issue_of_plan_stops hi rfl (callPlan_overflows rfl hb hc ht))

theorem exec_ret {t : PAddr} {ts : List PAddr} (hb : (ctxOf s lay).branch = none) (hc : (ctxOf s lay).coil = t :: ts) :
    exec (.ret (.short aux x y)) s
    = .next (finish (onCtx (passSlots (slotStart w) 1) lay (fun c => { c with coil := c.coil.drop 1 })) lay 1
      { branch := some ⟨(ctxOf (passSlots (slotStart w) 1) lay).pc, t, false, false, true⟩ }) :=
  congrArg Host.Outcome.next (issue_of_plan_runs hi rfl (retPlan_runs rfl hb hc))

theorem exec_ret_underflow (hb : (ctxOf s lay).branch = none) (hc : (ctxOf s lay).coil = []) :
    exec (.ret (.short aux x y)) s = .next (annul (slotStart w) lay 1 .coilUnderflow 0 none) :=
  congrArg Host.Outcome.next (issue_of_plan_stops hi rfl (retPlan_underflows rfl hb hc))

/-- The legality check of each of the five asks that no branch waits, so in a delay slot it fails (R364). -/
theorem exec_annulled_in_delay_slot {mk : Form → Instr} {opc : Nat}
    (hm : (mk, opc) ∈ [(Instr.bcc, 0x19), (.call, 0x1A), (.ret, 0x1B), (.loop, 0x1C), (.endLay, 0x1D)])
    (hb : (ctxOf s lay).branch ≠ none) : exec (mk (.short aux x y)) s
    = .next (annul (slotStart w) lay 1 .illegalOp (firstWord opc (.short aux x y)) none) := by
  have waits : (ctxOf s lay).branch.isNone = false := Option.isNone_eq_false_iff.mpr (Option.isSome_iff_ne_none.mpr hb)
  simp only [List.mem_cons, Prod.mk.injEq, List.not_mem_nil, or_false] at hm
  rcases hm with ⟨rfl, rfl⟩ | ⟨rfl, rfl⟩ | ⟨rfl, rfl⟩ | ⟨rfl, rfl⟩ | ⟨rfl, rfl⟩ <;> apply congrArg Host.Outcome.next
  · exact issue_of_require_not hi rfl waits
  · exact issue_of_require_not hi rfl waits
  · exact issue_of_require_not hi rfl waits
  · exact issue_of_require_not hi rfl (by simp [waits])
  · exact issue_of_require_not hi rfl (by simp [waits])

end short

/-! ### The obligation -/

/-- Settles O18: outside a delay slot the plan of each branch runs or stops at the Coil; in one, its check fails. -/
theorem branchInstructionsComplete : Obligations.BranchInstructionsComplete := by
  unfold Obligations.BranchInstructionsComplete
  refine ⟨fun aux x y s lay w hi hb => ⟨exec_bcc hi hb, exec_call hi hb, exec_call_overflow hi hb,
    fun t ts => exec_ret hi hb, exec_ret_underflow hi hb⟩, fun mk opc hm aux x y s lay w hi hb => ?_⟩
  have short : opc < 32 := by
    simp only [List.mem_cons, Prod.mk.injEq, List.not_mem_nil, or_false] at hm
    omega
  rw [exec_annulled_in_delay_slot hi hm hb, firstWord_short short]

end Sys2Proof.Machine
end

section
/-! SUPPORT. What sat24, the rounding of LERP and TLU and the table index compute, and the statement on the results of CLAMP,
LERP and TLU (O14; R411 to R414). -/

namespace Sys2Proof.Machine
open Claim

variable {r d x t lo hi v0 v1 : Cell} {v num : Int} {sat half : Bool} {c : Option Bool} {fx : FlagFx} {m : Mods} {fr k : Nat}

theorem zn_znOf : ZN ⟨r, znOf r fx⟩ := ⟨rfl, congrArg some BitVec.msb_eq_toInt⟩

theorem toInt_toBits_of_fits24 (h : Fits24 v) : (toBits 24 v).toInt = v :=
  BitVec.toInt_ofInt_eq_self (by decide) h.1 (by have := h.2; omega)

theorem satRes_isSat24 : IsSat24 v sat (satRes v sat c) := by
  by_cases h : Fits24 v
  · have hs : sat24 v sat = (toBits 24 v, false, false) := if_neg (by unfold Fits24 at h; omega)
    refine ⟨fun _ => ?_, fun hn => absurd h hn, fun hn => absurd h hn⟩
    unfold satRes
    rw [hs]
    exact ⟨toInt_toBits_of_fits24 h, rfl, rfl⟩
  · have hs : sat24 v sat = if sat then (if v > 0 then 0x7FFFFF else 0x800000, true, true)
        else (toBits 24 v, true, false) := if_pos (by unfold Fits24 at h; omega)
    refine ⟨fun hf => absurd hf h, fun _ on => ?_, fun _ off => ?_⟩ <;> unfold satRes <;> rw [hs]
    · rw [on]
      refine ⟨?_, rfl, rfl⟩
      by_cases hv : v > 0
      · simp [hv]
      · simp [hv]
    · rw [off]
      exact ⟨rfl, rfl, rfl⟩

theorem roundDiv_twice : roundDiv num (2 * k) half = (num + if half then (k : Int) else 0) / (2 * k : Nat) := by
  cases half with
  | false => simp [roundDiv]
  | true =>
    have h2 : 2 * num + (2 * k : Nat) = 2 * (num + k) := by push_cast; ring
    simp only [roundDiv, roundHalfUp, if_true]
    rw [h2]
    exact Int.mul_ediv_mul_of_pos _ _ (by decide)

theorem toInt_clampRes : (clampRes d lo hi).r.toInt = min (max d.toInt lo.toInt) hi.toInt := by
  simp only [clampRes]
  split <;> split <;> omega

/-- A value at a fraction below 1 of the way, rounded, lies between the ends of the way. -/
theorem interpolated_between {a b : Int} (hf : fr < 256) {q : Int} (hq : 0 ≤ q) (hl : q ≤ 128) :
    min a b ≤ a + ((b - a) * fr + q) / 256 ∧ a + ((b - a) * fr + q) / 256 ≤ max a b := by
  rcases Int.le_total 0 (b - a) with h | h
  · have h1 : 0 ≤ (b - a) * fr := Int.mul_nonneg h (by omega)
    have h2 : (b - a) * fr ≤ (b - a) * 255 := Int.mul_le_mul_of_nonneg_left (by omega) h
    omega
  · have h1 : (b - a) * fr ≤ 0 := Int.mul_nonpos_of_nonpos_of_nonneg h (by omega)
    have h2 : (b - a) * 255 ≤ (b - a) * fr := Int.mul_le_mul_of_nonpos_left h (by omega)
    omega

theorem toInt_fits24 : Fits24 x.toInt := ⟨BitVec.le_toInt x, by have := BitVec.toInt_lt (x := x); omega⟩

theorem toInt_tluRes (hf : fr < 256) : (tluRes v0 v1 fr m).r.toInt
    = v0.toInt + ((v1.toInt - v0.toInt) * fr + (if m.half then 128 else 0)) / 256 := by
  have hr : roundDiv ((v1.toInt - v0.toInt) * fr) 256 m.half
      = ((v1.toInt - v0.toInt) * fr + if m.half then 128 else 0) / 256 := roundDiv_twice (k := 128)
  have hb := interpolated_between (a := v0.toInt) (b := v1.toInt) hf (q := if m.half then 128 else 0)
    (by split <;> decide) (by split <;> decide)
  have h0 := toInt_fits24 (x := v0)
  have h1 := toInt_fits24 (x := v1)
  unfold Fits24 at h0 h1
  simp only [tluRes]
  rw [hr]
  exact toInt_toBits_of_fits24 ⟨by omega, by omega⟩

theorem lerpRes_eq : lerpRes d x t m = satRes (d.toInt + ((x.toInt - d.toInt) * t.toInt
    + (if m.half then 2 ^ 22 else 0)) / 2 ^ 23) m.sat none := by
  have hr := roundDiv_twice (num := (x.toInt - d.toInt) * t.toInt) (half := m.half) (k := 2 ^ 22)
  unfold lerpRes
  exact congrArg (fun q => satRes (d.toInt + q) m.sat none) hr

theorem toNat_lt_of_toInt_nonneg (h : ¬x.toInt < 0) : x.toNat < 2 ^ 23 ∧ x.toInt = x.toNat := by
  have := BitVec.toInt_eq_toNat_cond x
  have := x.isLt
  split at * <;> omega

theorem tluIndex_fraction : tluIndex x false
    = if x.toInt < 0 then (0, 0) else (x.toNat / 2 ^ 15, x.toNat / 2 ^ 7 % 256) := by
  refine (if_neg (by decide)).trans ?_
  by_cases h : x.toInt < 0
  · rw [if_pos h, if_pos h]
  · have hx := (toNat_lt_of_toInt_nonneg h).1
    have index : cfld x 22 15 = x.toNat / 2 ^ 15 := Nat.mod_eq_of_lt (by omega)
    have fraction : cfld x 14 7 = x.toNat / 2 ^ 7 % 256 := rfl
    rw [if_neg h, if_neg h, index, fraction]

theorem tluIndex_integer : (tluIndex x true).1 = (min (max x.toInt 0) 255).toNat := by
  simp only [tluIndex, if_true]
  by_cases h : x.toInt < 0
  · rw [if_pos h]
    omega
  · have hx := (toNat_lt_of_toInt_nonneg h).2
    rw [if_neg h]
    split <;> omega

/-! ### The obligation -/

/-- Settles O14: each result is the rounded or limited value, and its index the field of the cell. -/
theorem clampLerpAndTableResults : Obligations.ClampLerpAndTableResults := by
  unfold Obligations.ClampLerpAndTableResults
  intro d a b m fr
  refine ⟨⟨toInt_clampRes, zn_znOf, ?_, rfl⟩, ?_, fun hf => ⟨toInt_tluRes hf, zn_znOf, rfl⟩, tluIndex_fraction,
    tluIndex_integer⟩
  · refine congrArg some ?_
    rw [bne, decide_not]
    rfl
  · rw [lerpRes_eq]
    exact ⟨satRes_isSat24, zn_znOf, rfl⟩

end Sys2Proof.Machine
end

section
/-! SUPPORT. How an instruction issues once its operands are located, and the statement on CLRA, BXCLR, MOVI and NOP (O12;
R356, R411, R421). -/

namespace Sys2Proof.Machine
open Claim

variable {s : State} {lay : Bool} {w : Work} {f : Form} {mk : Bool → Ctx → Issue} {plan : Run Effect}

/-! ### A plan that locates its operands -/

section located
variable {α : Type} {r : Run α} {x : α} (hi : Issues s lay f r x w)
include hi

/-- After the fetch, a plan that ends as r does from there ends so from the start. -/
theorem fetched_of_located {k : Run Effect} {y : Except Stop Effect}
    (hp : ∀ w1, r.run.run w1 = (.ok x, w) → k.run.run w1 = (y, w)) :
    (do fetchCheck lay (formLen f); k : Run Effect).run.run { st := s, stall := 0 } = (y, w) := by
  obtain ⟨_, w1, hf, hr⟩ := run_bind_inv hi.found
  rw [run_bind_ok hf]
  exact hp w1 hr

/-- A plan that goes on once its operands are located has its effect at the start of the slot (R429). -/
theorem issue_of_located {word : Word} {eff : Effect} (hm : mk lay (ctxOf s lay) = ⟨word, formLen f, plan⟩)
    (hp : ∀ w1, r.run.run w1 = (.ok x, w) → plan.run.run w1 = (.ok eff, w)) :
    issue s mk = finish (eff (slotStart w)).1 lay (formLen f) (eff (slotStart w)).2 :=
  issue_runs hi.turn (by rw [hm]) hi.whole hi.early (by rw [hm]; exact fetched_of_located hi hp)

/-- A plan that stops once its operands are located annuls its instruction (R431). -/
theorem issue_of_located_stops {word d : Word} {code : FaultCode} {va : Option Nat}
    (hm : mk lay (ctxOf s lay) = ⟨word, formLen f, plan⟩)
    (hp : ∀ w1, r.run.run w1 = (.ok x, w) → plan.run.run w1 = (.error (.fault code d va), w)) :
    issue s mk = annul (slotStart w) lay (formLen f) code d va :=
  issue_annuls hi.turn (by rw [hm]) hi.whole hi.early (by rw [hm]; exact fetched_of_located hi hp)

end located

/-- A plain instruction that its context forbids is annulled with its first word (R402). -/
theorem execPlain_annulled {opc : Nat} {ok : Bool → Ctx → Bool} {eff : Bool → Effect}
    (hi : Issues s lay f (pure () : Run Unit) () w) (hok : (!isLong f && ok lay (ctxOf s lay)) = false) :
    execPlain opc f ok eff s = annul (slotStart w) lay (formLen f) .illegalOp (firstWord opc f) none :=
  issue_of_require_not hi rfl hok

/-! ### Fields -/

theorem nbit_eq_testBit {v n : Nat} : nbit v n = v.testBit n := by
  rw [nbit, Nat.testBit_eq_decide_div_mod_eq]
  rfl

theorem nbit_toNat {k n : Nat} {y : BitVec k} : nbit y.toNat n = y.getLsbD n := nbit_eq_testBit

theorem nbit_mod_two_pow {v k n : Nat} (h : n < k) : nbit (v % 2 ^ k) n = nbit v n := by
  rw [nbit_eq_testBit, nbit_eq_testBit, Nat.testBit_mod_two_pow, decide_eq_true h, Bool.true_and]

theorem vget_clearAll {mask n : Nat} (h : n < 4) (is : List Nat) : ∀ a : Vector Acc 4,
    vget (is.foldl (fun a i => if nbit mask i then vset a i 0 else a) a) n 0
      = if n ∈ is ∧ nbit mask n = true then 0 else vget a n 0 := by
  induction is with
  | nil => exact fun a => (if_neg (by simp)).symm
  | cons i is ih =>
    intro a
    rw [List.foldl_cons, ih]
    by_cases hn : nbit mask n = true ∧ n = i
    · obtain ⟨hm, rfl⟩ := hn
      simp [hm, vget_vset_same h]
    · have hk : vget (if nbit mask i then vset a i 0 else a) n 0 = vget a n 0 := by
        split
        next hm => exact vget_vset_other fun he => hn ⟨he ▸ hm, he⟩
        next => rfl
      rw [hk]
      refine if_congr ?_ rfl rfl
      rw [List.mem_cons]
      tauto

theorem vget_clearAccs {a : Vector Acc 4} {mask n : Nat} (h : n < 4) :
    vget (clearAccs a mask) n 0 = if nbit mask n then 0 else vget a n 0 :=
  (vget_clearAll h (List.range 4) a).trans (if_congr (by simp [h]) rfl rfl)

theorem movi_cell {c1 c2 : BitVec 12} : BitVec.ofNat 24 (c1.toNat * 4096 + c2.toNat) = c1 ++ c2 := by
  apply BitVec.eq_of_toNat_eq
  rw [BitVec.toNat_append, ← Nat.shiftLeft_add_eq_or_of_lt c2.isLt, Nat.shiftLeft_eq, BitVec.toNat_ofNat]
  have := c1.isLt
  have := c2.isLt
  omega

/-! ### CLRA, BXCLR, MOVI, NOP -/

section short
variable {aux : BitVec 2} {x y : BitVec 12} (hi : Issues s lay (.short aux x y) (pure () : Run Unit) () w)
include hi

theorem exec_nop : exec (.nop (.short aux x y)) s = .next (finish (passSlots (slotStart w) 1) lay 1 {}) :=
  congrArg Host.Outcome.next (execPlain_runs hi rfl)

theorem exec_bxclr : exec (.bxclr (.short aux x y)) s = .next (finish
    (onCtx (passSlots (slotStart w) 1) lay (fun c => { c with bx := 23, f := putFlag c.f fBV false })) lay 1 {}) :=
  congrArg Host.Outcome.next (execPlain_runs hi rfl)

theorem exec_clra : exec (.clra (.short aux x y)) s = .next (finish (onCtx (passSlots (slotStart w) 1) lay
    (fun c => { c with a := clearAccs (ctxOf (passSlots (slotStart w) 1) lay).a (y.toNat % 16) })) lay 1 {}) :=
  congrArg Host.Outcome.next (execPlain_runs hi rfl)

end short

/-- The slot of a MOVI of v to l (R411). -/
def moviEffect (f : Form) (lay : Bool) (c : Ctx) (d : Opnd) (l : Loc) (v : Cell) : Effect := fun s =>
  (writeResult s lay (modsOf c f) (postsOf c d) (some l) ⟨v, znOf v {}⟩, {})

section movi
variable {c1 c2 : BitVec 12} {fm : BitVec 3} {fpl : BitVec 20} {l : Loc} (hd : dstOk (fullOpnd fm fpl) = true)
include hd

theorem moviPlan_runs {c : Ctx} {w1 : Work} (hl : (locOf lay c .write (fullOpnd fm fpl) 0).run.run w1 = (.ok l, w)) :
    (moviPlan (.long 0 0 false 0 0 false c1 fm fpl c2) lay c).run.run w1
      = (.ok (moviEffect (.long 0 0 false 0 0 false c1 fm fpl c2) lay c (fullOpnd fm fpl) l (c1 ++ c2)), w) := by
  unfold moviPlan
  dsimp only
  rw [hd, movi_cell]
  exact (run_bind_ok run_require).trans ((run_bind_ok hl).trans rfl)

theorem exec_movi
    (hi : Issues s lay (.long 0 0 false 0 0 false c1 fm fpl c2) (locOf lay (ctxOf s lay) .write (fullOpnd fm fpl) 0) l w) :
    exec (.movi (.long 0 0 false 0 0 false c1 fm fpl c2)) s = .next (finish
      (writeResult (slotStart w) lay (modsOf (ctxOf s lay) (.long 0 0 false 0 0 false c1 fm fpl c2))
        (postsOf (ctxOf s lay) (fullOpnd fm fpl)) (some l) ⟨c1 ++ c2, znOf (c1 ++ c2) {}⟩) lay 2 {}) :=
  congrArg Host.Outcome.next (issue_of_located hi rfl fun _ hr => moviPlan_runs hd hr)

end movi

/-! ### The obligation -/

/-- Settles O12: the plans of these four have no way to stop once their words are fetched and the destination located. -/
theorem clearMoveImmediateAndNopComplete : Obligations.ClearMoveImmediateAndNopComplete := by
  unfold Obligations.ClearMoveImmediateAndNopComplete
  refine ⟨fun aux x y s lay w hi => ⟨exec_nop hi, exec_bxclr hi, _, exec_clra hi, fun n hn => ?_⟩,
    fun c1 c2 fm fpl s lay l w hd hi => exec_movi hd hi⟩
  have low : nbit (y.toNat % 16) n = nbit y.toNat n := nbit_mod_two_pow (k := 4) hn
  rw [vget_clearAccs hn, low, nbit_toNat]

end Sys2Proof.Machine
end

section
/-! SUPPORT. Which parts of a core clock leave the Lay's state out of account, and that the marks which END sets neither
change what its slot completes nor are changed by it (R26, R343, R456). -/

namespace Sys2Proof.Machine

/-- The state with Lay state l. -/
def withLay (s : State) (l : Lay) : State := { s with lay := l }

/-- The operation neither reads nor changes the Lay's state. -/
def LayBlind (f : State → State) : Prop := ∀ s l, f (withLay s l) = withLay (f s) l

variable {f g : State → State}

theorem LayBlind.comp (hg : LayBlind g) (hf : LayBlind f) : LayBlind (fun s => g (f s)) := fun s l => by
  dsimp only
  rw [hf, hg]

theorem LayBlind.ite {c : State → Bool} (hc : ∀ s l, c (withLay s l) = c s) (hf : LayBlind f) (hg : LayBlind g) :
    LayBlind (fun s => if c s then f s else g s) := by
  intro s l
  dsimp only
  rw [hc]
  split
  · exact hf s l
  · exact hg s l

/-- An operation that takes a part of the state beside the Lay's. -/
theorem LayBlind.reading {α : Type} {x : State → α} {op : α → State → State} (hx : ∀ s l, x (withLay s l) = x s)
    (h : ∀ a, LayBlind (op a)) : LayBlind (fun s => op (x s) s) := by
  intro s l
  dsimp only
  rw [hx]
  exact h _ s l

theorem LayBlind.foldl {α : Type} {op : State → α → State} (h : ∀ x, LayBlind (op · x)) (xs : List α) :
    LayBlind (xs.foldl op ·) := by
  induction xs with
  | nil => exact fun _ _ => rfl
  | cons x xs ih => exact ih.comp (h x)

theorem LayBlind.id : LayBlind (fun s => s) := fun _ _ => rfl

/-! ### Operations of a core clock (R343, R456, R498, R844) -/

theorem setReg_layBlind {r : Nat} {w : Word} : LayBlind (setReg · r w) := fun _ _ => rfl

theorem setB_layBlind {r n : Nat} {b : Bool} : LayBlind (setB · r n b) := fun _ _ => rfl

theorem countUp_layBlind {r hi lo : Nat} : LayBlind (countUp · r hi lo) := fun _ _ => rfl

theorem setF_layBlind {r hi lo v : Nat} : LayBlind (setF · r hi lo v) := fun _ _ => rfl

theorem postEvent_layBlind {e : Nat} {f : Cell → Cell} : LayBlind (postEvent · e f) := fun _ _ => rfl

theorem logDrop_layBlind : LayBlind logDrop := setB_layBlind.comp countUp_layBlind

theorem pinSettle_layBlind : LayBlind pinSettle := by
  have latch : LayBlind (fun s => if pinModes s.power.mode && pinSourced s && getB s Reg.sysFaultPin 14
      then setB s Reg.sysFaultPin 13 true else s) := .ite (fun _ _ => rfl) setB_layBlind .id
  have level : LayBlind (fun s => if pinWanted s
      then if s.cleat.pinLow then s else { s with cleat := { s.cleat with pinLow := true, pinHold := true } }
      else if s.cleat.pinHold then s else { s with cleat := { s.cleat with pinLow := false } }) :=
    .ite (fun _ _ => rfl) (.ite (fun _ _ => rfl) .id (fun _ _ => rfl)) (.ite (fun _ _ => rfl) .id (fun _ _ => rfl))
  exact level.comp latch

theorem sysEvent_layBlind {k : Nat} : LayBlind (sysEvent · k) := by
  have post : LayBlind (fun s => if getB s Reg.sysEventEn k
      then postEvent s 16 (fun d => d ||| BitVec.ofNat 24 (2 ^ k)) else s) :=
    .ite (fun _ _ => rfl) postEvent_layBlind .id
  exact post.comp setB_layBlind

theorem logHw_layBlind {code : FaultCode} {d : Word} : LayBlind (logHw · code d) :=
  .ite (c := fun s => getB s Reg.cltLogHead 22 || decide (s.cleat.queue.length ≥ 4)) (fun _ _ => rfl)
    logDrop_layBlind (fun _ _ => rfl)

theorem logEnter_layBlind {it : LogItem} : LayBlind (logEnter · it) := by
  have newest (next : Nat) : LayBlind (fun s => countUp s (Reg.log ((next + 15) % 16) 0) 17 8) := countUp_layBlind
  have fresh (next : Nat) : LayBlind (fun s =>
      let s := setReg s (Reg.log next 0) (logWord0 it)
      let s := setReg s (Reg.log next 1) (BitVec.ofNat 32 (it.slot % 65536 * 65536 + it.pc.toNat))
      let s := setReg s (Reg.log next 2) it.frame
      let s := setReg s (Reg.log next 3) it.detail
      countUp (setF s Reg.cltLogHead 3 0 ((next + 1) % 16)) Reg.cltLogHead 15 8) :=
    countUp_layBlind.comp (setF_layBlind.comp (setReg_layBlind.comp (setReg_layBlind.comp
      (setReg_layBlind.comp setReg_layBlind))))
  have entry := LayBlind.ite (c := (logRepeats · it)) (fun _ _ => rfl)
    (.reading (x := (getF · Reg.cltLogHead 3 0)) (fun _ _ => rfl) newest)
    (.reading (x := (getF · Reg.cltLogHead 3 0)) (fun _ _ => rfl) fresh)
  have pend : LayBlind (fun s => if it.ctx == .lay then { s with cleat := { s.cleat with layPend := true } } else s) :=
    .ite (fun _ _ => rfl) (fun _ _ => rfl) .id
  exact pinSettle_layBlind.comp (sysEvent_layBlind.comp (setB_layBlind.comp (pend.comp entry)))

theorem logStep_layBlind : LayBlind logStep := by
  intro s l
  have step (it : LogItem) (rest : List LogItem) : LayBlind (fun s =>
      let s := { s with cleat := { s.cleat with queue := rest } }
      if getB s Reg.cltLogHead 22 then logDrop s else logEnter s it) :=
    LayBlind.comp (.ite (c := (getB · Reg.cltLogHead 22)) (fun _ _ => rfl) logDrop_layBlind logEnter_layBlind)
      (f := fun s => { s with cleat := { s.cleat with queue := rest } }) (fun _ _ => rfl)
  unfold logStep
  rw [show (withLay s l).cleat = s.cleat from rfl]
  cases s.cleat.queue with
  | nil => rfl
  | cons it rest => exact step it rest s l

theorem setWhip_layBlind {u : Nat} {w : Whip} : LayBlind (setWhip · u w) := fun _ _ => rfl

theorem whipCompareNow_layBlind {u : Nat} : LayBlind (whipCompareNow · u) := by
  have posts : LayBlind (fun s => if getB s (Reg.whp u 0) 4
      then postEvent (logHw s .whipMismatch (BitVec.ofNat 32 u)) 19 (fun d => d ||| BitVec.ofNat 24 (2 ^ u)) else s) :=
    .ite (fun _ _ => rfl) (postEvent_layBlind.comp logHw_layBlind) .id
  have mismatch := pinSettle_layBlind.comp (posts.comp (sysEvent_layBlind (k := 9) |>.comp
    (setB_layBlind (r := Reg.whp u 9) (n := 2) (b := true) |>.comp
      (countUp_layBlind (r := Reg.whp u 9) (hi := 23) (lo := 16)))))
  have compared (w : Whip × Bool) : LayBlind (fun s =>
      let s := setB (setWhip s u { w.1 with check := none, matched := w.2 }) (Reg.whp u 9) 0 true
      if w.2 then s else pinSettle (
        let s := sysEvent (setB (countUp s (Reg.whp u 9) 23 16) (Reg.whp u 9) 2 true) 9
        if getB s (Reg.whp u 0) 4
        then postEvent (logHw s .whipMismatch (BitVec.ofNat 32 u)) 19 (fun d => d ||| BitVec.ofNat 24 (2 ^ u)) else s)) :=
    LayBlind.comp (.ite (c := fun _ => w.2) (fun _ _ => rfl) .id mismatch) (setB_layBlind.comp setWhip_layBlind)
  exact .reading (x := fun s => (whipUnit s u, !(whipUnit s u).poison && decide ((whipUnit s u).result.toNat
    % 2 ^ (whipUnit s u).set.width = (getReg s (Reg.whp u 8)).toNat % 2 ^ (whipUnit s u).set.width)))
    (fun _ _ => rfl) compared

theorem whipClock_layBlind {u : Nat} : LayBlind (whipClock · u) := by
  intro s l
  dsimp only
  unfold whipClock
  rw [show whipUnit (withLay s l) u = whipUnit s u from rfl]
  dsimp only
  cases (whipUnit s u).queue with
  | nil => rfl
  | cons b rest =>
    exact LayBlind.comp (.ite (c := fun _ => (whipUnit s u).check == some 1) (fun _ _ => rfl) whipCompareNow_layBlind .id)
      setWhip_layBlind s l

theorem backfillFound_layBlind {e : EccError} : LayBlind (backfillFound · e) := by
  refine .ite (c := fun _ => e.double) (fun _ _ => rfl) (logHw_layBlind.comp setB_layBlind) ?_
  exact setB_layBlind.comp (countUp_layBlind.comp fun _ _ => rfl)

theorem backfillStep_layBlind : LayBlind backfillStep :=
  .ite (c := fun s => s.splice.state == .backfill) (fun _ _ => rfl)
    (.reading (x := fun s => s.mem.ecc.filter (fun e => backfillReads s e
      && decide (backfillAt e = s.clock.time - s.splice.since))) (fun _ _ => rfl) (.foldl fun _ => backfillFound_layBlind))
    .id

/-! ### The marks of END -/

/-- The three marks that END sets: its slot, heads due, the step run (R26, R209). -/
def markLay (slot : Option Nat) (due step : Bool) (l : Lay) : Lay :=
  { l with endedAt := slot, headsDue := due, stepping := step }

/-- The state with the marks of END. -/
def endMark (slot : Option Nat) (due step : Bool) (s : State) : State := withLay s (markLay slot due step s.lay)

variable {s : State} {l : Lay} {slot : Option Nat} {due step : Bool}

theorem LayBlind.lay_eq (h : LayBlind f) : (f s).lay = s.lay := (congrArg State.lay (h s s.lay) :)

theorem LayBlind.endMark (h : LayBlind f) : f (endMark slot due step s) = endMark slot due step (f s) := by
  unfold Machine.endMark
  rw [h, h.lay_eq]

theorem storeCommit_endMark : storeCommit (endMark slot due step s) = endMark slot due step (storeCommit s) := by
  cases h : s.lay.store with
  | none =>
    have hn : storeCommit s = s := by rw [storeCommit, h]
    have hm : storeCommit (endMark slot due step s) = endMark slot due step s := by
      rw [storeCommit, show (endMark slot due step s).lay.store = none from h]
    rw [hn, hm]
  | some e =>
    rw [storeCommit, show (endMark slot due step s).lay.store = some e from h, storeCommit, h]
    rfl

theorem mulComplete_markLay {m : InFlight} :
    mulComplete (markLay slot due step l) m = markLay slot due step (mulComplete l m) := by
  unfold mulComplete
  split <;> rfl

theorem mulCompletes_markLay (ms : List InFlight) :
    ms.foldl mulComplete (markLay slot due step l) = markLay slot due step (ms.foldl mulComplete l) := by
  induction ms generalizing l with
  | nil => rfl
  | cons m ms ih => rw [List.foldl_cons, mulComplete_markLay, ih, List.foldl_cons]

theorem flightPass_markLay {n : Nat} :
    flightPass (markLay slot due step l) n = markLay slot due step (flightPass l n) :=
  mulCompletes_markLay (l := { l with flight := _ }) _

theorem passClock_endMark : passClock (endMark slot due step s) = endMark slot due step (passClock s) := by
  have units : LayBlind (fun s => backfillStep ([0, 1, 2, 3].foldl whipClock s)) :=
    backfillStep_layBlind.comp (.foldl (fun _ => whipClock_layBlind) _)
  unfold passClock
  rw [logStep_layBlind.endMark, storeCommit_endMark]
  dsimp only
  rw [units.endMark]
  unfold endMark withLay
  dsimp only
  rw [flightPass_markLay]

/-- By delta: unfolding by the equations would compare s with passClock s field by field. -/
theorem passClocks_succ {n : Nat} : passClocks s (n + 1) = passClocks (passClock s) n := by
  delta passClocks
  rfl

theorem passClocks_endMark {n : Nat} : passClocks (endMark slot due step s) n = endMark slot due step (passClocks s n) := by
  induction n generalizing s with
  | zero => rfl
  | succ n ih => rw [passClocks_succ, passClock_endMark, ih, passClocks_succ]

theorem passSlots_endMark {n : Nat} : passSlots (endMark slot due step s) n = endMark slot due step (passSlots s n) := by
  unfold passSlots
  rw [show backfillMeets (endMark slot due step s) = backfillMeets s from rfl, passClocks_endMark]
  dsimp only
  split <;> rfl

theorem passSlots_stepping {n : Nat} : (passSlots s n).lay.stepping = s.lay.stepping :=
  (congrArg (fun t : State => t.lay.stepping) (passSlots_endMark (s := s) (slot := s.lay.endedAt) (due := s.lay.headsDue)
    (step := s.lay.stepping) (n := n)) :)

end Sys2Proof.Machine
end

section
/-! SUPPORT. The plan of LOOP check by check, the fields of MODE, the slots of END and YIELD, and the statement on these four
(O20; R26, R370, R373, R408, R423 to R425, R463). -/

namespace Sys2Proof.Machine
open Claim

variable {s : State} {lay : Bool} {w : Work}

/-! ### MODE -/

theorem pick_lt {on : Bool} {v o k : Nat} (hv : v < k) (ho : o < k) : (if on then v else o) < k := by
  split <;> assumption

/-- The lane field and the three bits of the MODE that the masked fields give (R408). -/
theorem applyMode_fields {mode : BitVec 5} {ms : ModeSet} :
    (applyMode mode ms).toNat / 8 = (if ms.mask.getLsbD 3 then ms.vals.toNat / 8 else mode.toNat / 8)
    ∧ (applyMode mode ms).toNat / 4 % 2 = (if ms.mask.getLsbD 2 then ms.vals.toNat / 4 % 2 else mode.toNat / 4 % 2)
    ∧ (applyMode mode ms).toNat / 2 % 2 = (if ms.mask.getLsbD 1 then ms.vals.toNat / 2 % 2 else mode.toNat / 2 % 2)
    ∧ (applyMode mode ms).toNat % 2 = (if ms.mask.getLsbD 0 then ms.vals.toNat % 2 else mode.toNat % 2) := by
  have hv := ms.vals.isLt
  have ho := mode.isLt
  have h3 : (if ms.mask.getLsbD 3 then ms.vals.toNat / 8 else mode.toNat / 8) < 4 := pick_lt (by omega) (by omega)
  have h2 : (if ms.mask.getLsbD 2 then ms.vals.toNat / 4 % 2 else mode.toNat / 4 % 2) < 2 := pick_lt (by omega) (by omega)
  have h1 : (if ms.mask.getLsbD 1 then ms.vals.toNat / 2 % 2 else mode.toNat / 2 % 2) < 2 := pick_lt (by omega) (by omega)
  have h0 : (if ms.mask.getLsbD 0 then ms.vals.toNat % 2 else mode.toNat % 2) < 2 := pick_lt (by omega) (by omega)
  unfold applyMode
  rw [BitVec.toNat_ofNat]
  dsimp only
  omega

theorem applyMode_bit {mode : BitVec 5} {ms : ModeSet} {n : Nat} (h : n < 3) : (applyMode mode ms).getLsbD n
    = if ms.mask.getLsbD n then ms.vals.getLsbD n else mode.getLsbD n := by
  obtain ⟨-, bit2, bit1, bit0⟩ := applyMode_fields (mode := mode) (ms := ms)
  have bits : (applyMode mode ms).toNat / 2 ^ n % 2
      = if ms.mask.getLsbD n then ms.vals.toNat / 2 ^ n % 2 else mode.toNat / 2 ^ n % 2 := by
    match n with
    | 0 =>
      simp only [pow_zero, Nat.div_one]
      exact bit0
    | 1 => exact bit1
    | 2 => exact bit2
  rw [← nbit_toNat, ← nbit_toNat (y := ms.vals), ← nbit_toNat (y := mode), nbit, bits]
  split <;> rfl

section short
variable {aux : BitVec 2} {x y : BitVec 12} (hi : Issues s lay (.short aux x y) (pure () : Run Unit) () w)
include hi

theorem exec_mode (h : ¬(y.getLsbD 8 = true ∧ y.toNat / 8 % 4 = 3)) : exec (.mode (.short aux x y)) s = .next (finish
    (passSlots (slotStart w) 1) lay 1 { mode := some ⟨y.extractLsb' 5 4, y.extractLsb' 0 5⟩ }) := by
  have legal : (!(nbit y.toNat 8 && y.toNat / 8 % 4 == 3)) = true := by
    rw [nbit_toNat]
    cases hb : y.getLsbD 8
    · rfl
    · exact congrArg not (beq_eq_false_iff_ne.mpr fun hl => h ⟨hb, hl⟩)
  have mask : BitVec.ofNat 4 (y.toNat / 32) = y.extractLsb' 5 4 := by
    rw [BitVec.extractLsb', Nat.shiftRight_eq_div_pow]
  rw [← mask]
  exact congrArg Host.Outcome.next (execPlain_runs hi legal)

theorem exec_mode_annulled (hb : y.getLsbD 8 = true) (hl : y.toNat / 8 % 4 = 3) : exec (.mode (.short aux x y)) s
    = .next (annul (slotStart w) lay 1 .illegalOp (firstWord 0x1E (.short aux x y)) none) := by
  have bad : (!(nbit y.toNat 8 && y.toNat / 8 % 4 == 3)) = false := by
    rw [nbit_toNat, hb, hl]
    rfl
  exact congrArg Host.Outcome.next (execPlain_annulled hi bad)

end short

/-! ### LOOP -/

theorem readLoc_fst {m : Mods} {l : Loc} : (readLoc s lay m l).1 = peekLoc s lay m l := by
  cases l <;> rfl

/-- The body of a LOOP in context c lies ahead of it and in the enclosing body, and a level is free (R370, R373). -/
structure LoopFits (f : Form) (c : Ctx) : Prop where
  level : c.hitch.length < 3
  ahead : (c.pc + 1).toNat ≤ (loopEnd f).toNat
  inside : ∀ h hs, c.hitch = h :: hs → (loopEnd f).toNat ≤ h.last.toNat

/-- The slot of a LOOP whose count is read from l (R370). -/
def loopEffect (f : Form) (lay : Bool) (c : Ctx) (o : Opnd) (l : Loc) : Effect := fun s =>
  let r := readLoc s lay (modsOf c f) l
  let e := passSlots r.2 1
  let c1 := applyPosts (ctxOf e lay) (postsOf c o)
  (setCtx e lay { c1 with f := applyFlags c1.f { s := locSats s lay (modsOf c f) l } },
    { hitch := some ⟨c.pc + 1, loopEnd f, (loopCount l r.1).toNat⟩ })

/-- The context as the end of the slot leaves it, replaced. -/
theorem onCtx_slotEnd {posts : List (Nat × Cell)} {g : Ctx → Ctx} :
    onCtx (slotEnd s lay posts) lay g = setCtx (passSlots s 1) lay (g (applyPosts (ctxOf (passSlots s 1) lay) posts)) := by
  cases lay <;> rfl

section plans
variable {c : Ctx} {aux : BitVec 2} {x y : BitVec 12}

theorem ofNat_shortY : BitVec.ofNat 12 (shortY (.short aux x y)) = y :=
  (BitVec.ofNat_toNat 12 y).trans (BitVec.setWidth_eq y)

section legal
variable (hb : c.branch = none) (ho : aux.toNat < 2 ∨ opndOk (compact y) = true)
include hb ho

theorem loop_legal : (!isLong (.short aux x y) && c.branch.isNone
    && (!decide (shortAux (.short aux x y) ≥ 2) || opndOk (compact (BitVec.ofNat 12 (shortY (.short aux x y)))))) = true := by
  rw [hb, ofNat_shortY]
  rcases ho with ho | ho
  · have : shortAux (.short aux x y) = aux.toNat := rfl
    rw [decide_eq_false (by omega)]
    rfl
  · rw [ho, Bool.or_true]
    rfl

theorem loopPlan_too_deep (hd : c.hitch.length ≥ 3) :
    (loopPlan (.short aux x y) lay c).run.run w = (.error (.fault .loopMisuse 0 none), w) := by
  unfold loopPlan
  dsimp only
  rw [loop_legal hb ho, run_bind_ok run_require, decide_eq_true hd]
  rfl

theorem loopPlan_behind (hd : c.hitch.length < 3) (he : (loopEnd (.short aux x y)).toNat < (c.pc + 1).toNat) :
    (loopPlan (.short aux x y) lay c).run.run w = (.error (.fault .loopMisuse 2 none), w) := by
  unfold loopPlan
  dsimp only
  rw [loop_legal hb ho, run_bind_ok run_require, decide_eq_false (Nat.not_le.mpr hd), decide_eq_true he]
  rfl

theorem loopPlan_outside (hd : c.hitch.length < 3) (he : (c.pc + 1).toNat ≤ (loopEnd (.short aux x y)).toNat)
    {h : Hitch} {hs : List Hitch} (hh : c.hitch = h :: hs) (hl : (loopEnd (.short aux x y)).toNat > h.last.toNat) :
    (loopPlan (.short aux x y) lay c).run.run w = (.error (.fault .loopMisuse 3 none), w) := by
  unfold loopPlan
  dsimp only
  rw [loop_legal hb ho, run_bind_ok run_require, decide_eq_false (Nat.not_le.mpr hd), decide_eq_false (Nat.not_lt.mpr he),
    hh]
  dsimp only
  rw [decide_eq_true hl]
  rfl

/-- What is left of the plan of a LOOP once its body fits. -/
def loopOpens (f : Form) (lay : Bool) (c : Ctx) : Run Effect :=
  if decide (shortAux f ≥ 2) then do
    let l ← locOf lay c .read (compact (BitVec.ofNat 12 (shortY f))) 0
    let w ← get
    let n := loopCount l (peekLoc (passSlots w.st w.stall) lay (modsOf c f) l)
    if decide (n < 1) || decide (n > 4096) then stopWith .loopMisuse 1
    return loopEffect f lay c (compact (BitVec.ofNat 12 (shortY f))) l
  else return fun s => (passSlots s 1, { hitch := some ⟨c.pc + 1, loopEnd f, shortY f + 1⟩ })

theorem loopPlan_opens (hf : LoopFits (.short aux x y) c) :
    (loopPlan (.short aux x y) lay c).run.run w = (loopOpens (.short aux x y) lay c).run.run w := by
  obtain ⟨hd, he, hl⟩ := hf
  unfold loopPlan
  dsimp only
  rw [loop_legal hb ho, run_bind_ok run_require, decide_eq_false (Nat.not_le.mpr hd), decide_eq_false (Nat.not_lt.mpr he)]
  cases hh : c.hitch with
  | nil => rfl
  | cons h hs =>
    dsimp only
    rw [decide_eq_false (Nat.not_lt.mpr (hl h hs hh))]
    rfl

end legal

theorem loopOpens_immediate (ha : aux.toNat < 2) : (loopOpens (.short aux x y) lay c).run.run w
    = (.ok (fun s => (passSlots s 1, { hitch := some ⟨c.pc + 1, loopEnd (.short aux x y), y.toNat + 1⟩ })), w) := by
  have source : decide (shortAux (.short aux x y) ≥ 2) = false := decide_eq_false (Nat.not_le.mpr ha)
  unfold loopOpens
  rw [source]
  rfl

section counted
variable {l : Loc} {w1 : Work} (ha : aux.toNat ≥ 2)
  (hl : (locOf lay c .read (compact y) 0).run.run w1 = (.ok l, w))
include ha hl

theorem loopOpens_counted
    (lo : 1 ≤ loopCount l (peekLoc (slotStart w) lay (modsOf c (.short aux x y)) l))
    (hi : loopCount l (peekLoc (slotStart w) lay (modsOf c (.short aux x y)) l) ≤ 4096) :
    (loopOpens (.short aux x y) lay c).run.run w1 = (.ok (loopEffect (.short aux x y) lay c (compact y) l), w) := by
  have source : decide (shortAux (.short aux x y) ≥ 2) = true := decide_eq_true ha
  unfold slotStart at lo hi
  unfold loopOpens
  rw [source, ofNat_shortY, if_pos rfl, run_bind_ok hl, run_bind_ok run_get]
  dsimp only
  rw [decide_eq_false (Int.not_lt.mpr lo), decide_eq_false (Int.not_lt.mpr hi)]
  rfl

theorem loopOpens_miscounted (hn : loopCount l (peekLoc (slotStart w) lay (modsOf c (.short aux x y)) l) < 1
      ∨ loopCount l (peekLoc (slotStart w) lay (modsOf c (.short aux x y)) l) > 4096) :
    (loopOpens (.short aux x y) lay c).run.run w1 = (.error (.fault .loopMisuse 1 none), w) := by
  have source : decide (shortAux (.short aux x y) ≥ 2) = true := decide_eq_true ha
  have out := (Bool.decide_or _ _).symm.trans (decide_eq_true hn)
  unfold slotStart at out
  unfold loopOpens
  rw [source, ofNat_shortY, if_pos rfl, run_bind_ok hl, run_bind_ok run_get]
  dsimp only
  rw [out]
  rfl

end counted

end plans

/-! ### END and YIELD -/

/-- END outside a step run: the Lay's program stops at the end of the slot, and nothing beside its marks tells the slot from
an empty one (R26). -/
theorem layEnd_of_not_stepping (h : s.lay.stepping = false) : layEnd s = (withLay (passSlots s 1)
    { (passSlots s 1).lay with inLay := false, endedAt := some s.clock.slot, headsDue := true, stepping := false }, {}) := by
  have marked := passSlots_endMark (s := s) (slot := some s.clock.slot) (due := true) (step := s.lay.stepping) (n := 1)
  exact (if_neg (ne_true_of_eq_false h)).trans
    (congrArg (fun t : State => (withLay t { t.lay with inLay := false, stepping := false }, ({} : Ctl))) marked)

/-! ### The commands -/

section short
variable {aux : BitVec 2} {x y : BitVec 12}

section unlocated
variable (hi : Issues s lay (.short aux x y) (pure () : Run Unit) () w)
include hi

theorem exec_loop_stops {d : Word}
    (hp : ∀ w1, (loopPlan (.short aux x y) lay (ctxOf s lay)).run.run w1 = (.error (.fault .loopMisuse d none), w1)) :
    exec (.loop (.short aux x y)) s = .next (annul (slotStart w) lay 1 .loopMisuse d none) :=
  congrArg Host.Outcome.next (issue_of_plan_stops hi rfl (hp w))

theorem exec_loop_immediate (hb : (ctxOf s lay).branch = none) (ha : aux.toNat < 2)
    (hf : LoopFits (.short aux x y) (ctxOf s lay)) : exec (.loop (.short aux x y)) s = .next (finish
      (passSlots (slotStart w) 1) lay 1
      { hitch := some ⟨(ctxOf s lay).pc + 1, loopEnd (.short aux x y), y.toNat + 1⟩ }) :=
  congrArg Host.Outcome.next (issue_of_plan_runs hi rfl (eff := fun t => (passSlots t 1,
      { hitch := some ⟨(ctxOf s lay).pc + 1, loopEnd (.short aux x y), y.toNat + 1⟩ }))
    ((loopPlan_opens hb (.inl ha) hf).trans (loopOpens_immediate ha)))

end unlocated

section located
variable {l : Loc} (hi : Issues s lay (.short aux x y) (locOf lay (ctxOf s lay) .read (compact y) 0) l w)
  (hb : (ctxOf s lay).branch = none) (ho : opndOk (compact y) = true) (ha : aux.toNat ≥ 2)
  (hf : LoopFits (.short aux x y) (ctxOf s lay))
include hi hb ho ha hf

theorem exec_loop_miscounted
    (hn : loopCount l (peekLoc (slotStart w) lay (modsOf (ctxOf s lay) (.short aux x y)) l) < 1
      ∨ loopCount l (peekLoc (slotStart w) lay (modsOf (ctxOf s lay) (.short aux x y)) l) > 4096) :
    exec (.loop (.short aux x y)) s = .next (annul (slotStart w) lay 1 .loopMisuse 1 none) :=
  congrArg Host.Outcome.next (issue_of_located_stops hi rfl fun _ hl =>
    (loopPlan_opens hb (.inr ho) hf).trans (loopOpens_miscounted ha hl hn))

theorem exec_loop_counted
    (lo : 1 ≤ loopCount l (peekLoc (slotStart w) lay (modsOf (ctxOf s lay) (.short aux x y)) l))
    (up : loopCount l (peekLoc (slotStart w) lay (modsOf (ctxOf s lay) (.short aux x y)) l) ≤ 4096) :
    exec (.loop (.short aux x y)) s = .next (finish
      (loopEffect (.short aux x y) lay (ctxOf s lay) (compact y) l (slotStart w)).1 lay 1
      (loopEffect (.short aux x y) lay (ctxOf s lay) (compact y) l (slotStart w)).2) :=
  congrArg Host.Outcome.next (issue_of_located hi rfl fun _ hl =>
    (loopPlan_opens hb (.inr ho) hf).trans (loopOpens_counted ha hl lo up))

end located

theorem exec_endLay (hi : Issues s true (.short aux x y) (pure () : Run Unit) () w) (hb : s.lay.lay.branch = none)
    (hs : w.st.lay.stepping = false) : exec (.endLay (.short aux x y)) s = .next (finish (withLay (passSlots (slotStart w) 1)
      { (passSlots (slotStart w) 1).lay with
        inLay := false, endedAt := some (slotStart w).clock.slot, headsDue := true, stepping := false }) true 1 {}) := by
  have legal : (true && (ctxOf s true).branch.isNone) = true := by
    rw [show (ctxOf s true).branch = none from hb]
    rfl
  have run := execPlain_runs (opc := 0x1D) (ok := fun lay c => lay && c.branch.isNone) (eff := fun _ s => layEnd s) hi legal
  rw [layEnd_of_not_stepping (s := slotStart w) (passSlots_stepping.trans hs)] at run
  exact congrArg Host.Outcome.next run

theorem exec_endLay_slack (hi : Issues s false (.short aux x y) (pure () : Run Unit) () w) :
    exec (.endLay (.short aux x y)) s
      = .next (annul (slotStart w) false 1 .illegalOp (firstWord 0x1D (.short aux x y)) none) :=
  congrArg Host.Outcome.next (execPlain_annulled hi rfl)

theorem exec_yield (hi : Issues s false (.short aux x y) (pure () : Run Unit) () w) :
    exec (.yield (.short aux x y)) s = .next (finish (wdogRestart (withLay (passSlots (slotStart w) 1)
      { (passSlots (slotStart w) 1).lay with yielded := true })) false 1 {}) :=
  congrArg Host.Outcome.next (execPlain_runs hi rfl)

theorem exec_yield_lay (hi : Issues s true (.short aux x y) (pure () : Run Unit) () w) : exec (.yield (.short aux x y)) s
    = .next (annul (slotStart w) true 1 .illegalOp (firstWord 0x1F (.short aux x y)) none) :=
  congrArg Host.Outcome.next (execPlain_annulled hi rfl)

end short

/-! ### The obligation -/

/-- Settles O20: LOOP's plan stops at its first check that fails or opens the level; MODE, END and YIELD have one check, and
the marks that END sets leave the rest of its slot as an empty one. -/
theorem modeLoopEndAndYieldComplete : Obligations.ModeLoopEndAndYieldComplete := by
  unfold Obligations.ModeLoopEndAndYieldComplete
  refine ⟨⟨fun aux x y s lay w hi => ⟨exec_mode hi, fun hb hl => ?_⟩, fun mode ms =>
      ⟨applyMode_fields.1, fun n => applyMode_bit⟩⟩,
    fun aux x y s lay => ⟨fun w hi hb ho => ⟨fun hd => ?_, fun hd he => ?_, fun hd he ⟨h, hs, hh, hl⟩ => ?_,
      fun hd he hl ha => ?_⟩, fun l w hi hb ho ha hd he hl => ⟨fun hn => ?_, fun lo up => ?_⟩⟩,
    fun aux x y s w => ⟨fun hi => ⟨fun hb hs => ?_, ?_⟩, fun hi => ⟨?_, ?_⟩⟩⟩
  · rw [exec_mode_annulled hi hb hl, firstWord_short (by decide)]
  · exact exec_loop_stops hi fun _ => loopPlan_too_deep hb ho hd
  · exact exec_loop_stops hi fun _ => loopPlan_behind hb ho hd he
  · exact exec_loop_stops hi fun _ => loopPlan_outside hb ho hd he hh hl
  · exact exec_loop_immediate hi hb ha ⟨hd, he, hl⟩
  · exact exec_loop_miscounted hi hb ho ha ⟨hd, he, hl⟩ hn
  · refine (exec_loop_counted hi hb ho ha ⟨hd, he, hl⟩ lo up).trans ?_
    unfold loopEffect
    dsimp only
    rw [readLoc_fst, onCtx_slotEnd]
    rfl
  · have run := exec_endLay hi hb hs
    generalize passSlots (slotStart w) 1 = e at run ⊢
    exact ⟨_, run, rfl, rfl, rfl, rfl, rfl, rfl, rfl⟩
  · rw [exec_yield_lay hi, firstWord_short (by decide)]
  · have run := exec_yield hi
    generalize passSlots (slotStart w) 1 = e at run ⊢
    exact ⟨_, run, rfl, rfl, rfl, rfl, rfl, rfl⟩
  · rw [exec_endLay_slack hi, firstWord_short (by decide)]

end Sys2Proof.Machine
end

section
/-! SUPPORT. The writes to the splice unit: when one is taken (R487, R489), what the taken write of each register does to
the unit and to the copies of Table, program and gains (R480 to R485, R490, R493, R494), what a refused one sets, and the
statement on them (O42). -/

namespace Sys2Proof.Machine
open Claim

variable {s t : State} {src : Source} {v : Word} {r q hi lo i n space : Nat}

/-! ### A register write of the unit -/

theorem putByte_testBit {w : Word} {k : Nat} (hk : k < 4) : (putFld w (8 * k + 7) (8 * k) (byteOf v k).toNat).toNat.testBit n
    = if n / 8 = k then v.toNat.testBit n else w.toNat.testBit n := by
  rw [putFld_testBit (by omega) (by omega)]
  by_cases h : n / 8 = k
  · have byte : 256 ^ k = 2 ^ (8 * k) := by rw [Nat.pow_mul]
    have inside : 8 * k ≤ n ∧ n ≤ 8 * k + 7 := by omega
    have place : n - 8 * k + 8 * k = n := by omega
    rw [if_pos inside, if_pos h, byteOf, byte, BitVec.toNat_ofNat, Nat.testBit_mod_two_pow, Nat.testBit_div_two_pow, place,
      decide_eq_true (by omega), Bool.true_and]
  · rw [if_neg (by omega), if_neg h]

theorem mergeBytes_all {old : Word} : mergeBytes 0xF old v = v := by
  have bytes : mergeBytes 0xF old v = putFld (putFld (putFld (putFld old (8 * 0 + 7) (8 * 0) (byteOf v 0).toNat)
      (8 * 1 + 7) (8 * 1) (byteOf v 1).toNat) (8 * 2 + 7) (8 * 2) (byteOf v 2).toNat)
      (8 * 3 + 7) (8 * 3) (byteOf v 3).toNat := rfl
  apply BitVec.eq_of_getLsbD_eq
  intro n hn
  rw [bytes, BitVec.getLsbD, BitVec.getLsbD, putByte_testBit (by decide), putByte_testBit (by decide),
    putByte_testBit (by decide), putByte_testBit (by decide)]
  obtain h | h | h | h : n / 8 = 3 ∨ n / 8 = 2 ∨ n / 8 = 1 ∨ n / 8 = 0 := by omega
  all_goals simp [h]

theorem writeReg_of_open {be : Nat} (h : Open s src r) (hr : regExists r = true) :
    (writeReg src r v be s).1 = pinSettle (writeAt s src r v be).1 := by
  unfold writeReg
  simp [h.reached, h.allowed, hr]

theorem exec_stagePtrWrite (h : Open s src Reg.splStagePtr) :
    exec (.stagePtrWrite src v) s = .next (pinSettle (stagePtrWrite s src v).1) := by
  have at_page : writeAt s src Reg.splStagePtr v 0xF = stagePtrWrite s src (mergeBytes 0xF (getReg s Reg.splStagePtr) v) := rfl
  rw [mergeBytes_all] at at_page
  exact congrArg _ ((writeReg_of_open h (by decide)).trans (by rw [at_page]))

theorem exec_stageDataWrite (h : Open s src Reg.splStageData) :
    exec (.stageDataWrite src v) s = .next (pinSettle (stageDataWrite s src v).1) := by
  have at_page : writeAt s src Reg.splStageData v 0xF
      = stageDataWrite s src (mergeBytes 0xF (shadowWord s (stageSpace s) (stageIndex s)) v) := rfl
  rw [mergeBytes_all] at at_page
  exact congrArg _ ((writeReg_of_open h (by decide)).trans (by rw [at_page]))

theorem exec_commitWrite (h : Open s src Reg.splCommitFrame) :
    exec (.commitWrite src v) s = .next (pinSettle (commitWrite s src v).1) := by
  have at_page : writeAt s src Reg.splCommitFrame v 0xF = commitWrite s src (mergeBytes 0xF (getReg s Reg.splCommitFrame) v) := rfl
  rw [mergeBytes_all] at at_page
  exact congrArg _ ((writeReg_of_open h (by decide)).trans (by rw [at_page]))

theorem exec_spliceCancel (h : Open s src Reg.splCtrl) :
    exec (.spliceCancel src) s = .next (pinSettle (splCtrlWrite s src 0x100 0x2).1) :=
  congrArg _ (writeReg_of_open h (by decide))

/-! ### FAULT# leaves the unit alone -/

@[simp] theorem pinSettle_splice : (pinSettle s).splice = s.splice := by
  obtain ⟨_, _, _, h, -⟩ := pinSettle_shape (s := s)
  rw [h]

@[simp] theorem pinSettle_mem : (pinSettle s).mem = s.mem := by
  obtain ⟨_, _, _, h, -⟩ := pinSettle_shape (s := s)
  rw [h]

@[simp] theorem pinSettle_lay : (pinSettle s).lay = s.lay := by
  obtain ⟨_, _, _, h, -⟩ := pinSettle_shape (s := s)
  rw [h]

@[simp] theorem pinSettle_queue : (pinSettle s).cleat.queue = s.cleat.queue := by
  obtain ⟨_, _, _, h, -⟩ := pinSettle_shape (s := s)
  rw [h]

theorem getF_pinSettle (h : q ≠ Reg.sysFaultPin) : getF (pinSettle s) q hi lo = getF s q hi lo := by
  simp only [getF, getReg_pinSettle h]

theorem getB_pinSettle (h : q ≠ Reg.sysFaultPin) : getB (pinSettle s) q n = getB s q n := by
  simp only [getB, getReg_pinSettle h]

/-! ### Taken or refused -/

theorem spliceTakes_iff : spliceTakes s src = true ↔ s.splice.state = .idle ∨ s.splice.state = .staging ∧ s.splice.owner = ownerOf src := by
  unfold spliceTakes
  cases h : s.splice.state <;> simp

theorem spliceTakes_eq_false (hi : s.splice.state ≠ .idle) (hm : ¬(s.splice.state = .staging ∧ s.splice.owner = ownerOf src)) :
    spliceTakes s src = false :=
  Bool.eq_false_iff.2 fun h => (spliceTakes_iff.1 h).elim hi hm

/-- A refusal sets its flag and leaves the unit as it was (R489). -/
theorem spliceRefuse_only_flags (hn : n < 32) :
    ButReg Reg.splStatus s (pinSettle (spliceRefuse s n)) ∧ getB (pinSettle (spliceRefuse s n)) Reg.splStatus n = true := by
  refine ⟨⟨?_, fun q hq hf => (getReg_pinSettle hf).trans (getReg_setB_other hq)⟩, ?_⟩
  · obtain ⟨_, _, _, h, -⟩ := pinSettle_shape (s := spliceRefuse s n)
    rw [h]
    rfl
  · rw [getB_pinSettle (by decide)]
    exact getB_setB hn

/-! ### The copies of Table, program and gains (R476, R497) -/

/-- The active and the shadow copy of each banked store. -/
structure Copies where
  activeTable : List (Nat × Cell)
  shadowTable : List (Nat × Cell)
  activeProg : List (Nat × Word)
  shadowProg : List (Nat × Word)
  activeGains : Vector Cell 16
  shadowGains : Vector Cell 16

/-- The copies that the unit has selected in s. -/
def copies (s : State) : Copies :=
  ⟨activeTable s, shadowTable s, activeProg s, shadowProg s, activeGains s, shadowGains s⟩

theorem copies_congr (hm : t.mem = s.mem) (hs : t.splice = s.splice) : copies t = copies s := by
  simp only [copies, activeTable, shadowTable, activeProg, shadowProg, activeGains, shadowGains, hm, hs]

theorem copies_setShadowTable {m : List (Nat × Cell)} : copies (setShadowTable s m) = { copies s with shadowTable := m } := by
  cases h : s.splice.tableSel <;>
    simp [copies, setShadowTable, activeTable, shadowTable, activeProg, shadowProg, activeGains, shadowGains, h]

theorem copies_setShadowProg {m : List (Nat × Word)} : copies (setShadowProg s m) = { copies s with shadowProg := m } := by
  cases h : s.splice.progSel <;>
    simp [copies, setShadowProg, activeTable, shadowTable, activeProg, shadowProg, activeGains, shadowGains, h]

theorem copies_setShadowGains {g : Vector Cell 16} : copies (setShadowGains s g) = { copies s with shadowGains := g } := by
  cases h : s.splice.gainSel <;>
    simp [copies, setShadowGains, activeTable, shadowTable, activeProg, shadowProg, activeGains, shadowGains, h]

/-! ### Staged words (R481, R482, R484) -/

theorem stageMark_shape : ∃ regs marks, stageMark s i = { s with regs := regs, splice := { s.splice with marks := marks } }
    ∧ (getB s Reg.splStagePtr 29 = false → i ∉ marks) := by
  unfold stageMark
  dsimp only
  split
  next hm => split <;> exact ⟨_, _, rfl, fun h => by simp [h] at hm⟩
  next => exact ⟨_, _, rfl, fun _ => by simp⟩

theorem copies_stageMark : copies (stageMark s i) = copies s := by
  obtain ⟨_, _, h, -⟩ := stageMark_shape (s := s) (i := i)
  rw [h]
  rfl

theorem stageMark_owner : (stageMark s i).splice.state = s.splice.state ∧ (stageMark s i).splice.owner = s.splice.owner := by
  obtain ⟨_, _, h, -⟩ := stageMark_shape (s := s) (i := i)
  rw [h]
  exact ⟨rfl, rfl⟩

theorem stageMark_unmarked (h : getB s Reg.splStagePtr 29 = false) : i ∉ (stageMark s i).splice.marks := by
  obtain ⟨_, _, hs, hm⟩ := stageMark_shape (s := s) (i := i)
  rw [hs]
  exact hm h

theorem copies_stageStore_table :
    copies (stageStore s 0 i v) = { copies s with shadowTable := sput zero (shadowTable s) i (v.setWidth 24) } :=
  copies_stageMark.trans (copies_setShadowTable (s := s))

theorem copies_stageStore_prog : copies (stageStore s 1 i v) = { copies s with shadowProg := sput zero (shadowProg s) i v } :=
  copies_setShadowProg (s := s)

theorem copies_stageStore_gain :
    copies (stageStore s 2 i v) = { copies s with shadowGains := vset (shadowGains s) i (v.setWidth 24 &&& 0x80FFFF) } :=
  copies_setShadowGains (s := s)

theorem stageStore_owner : (stageStore s space i v).splice.state = s.splice.state
    ∧ (stageStore s space i v).splice.owner = s.splice.owner := by
  unfold stageStore
  split
  · exact stageMark_owner
  · exact ⟨rfl, rfl⟩
  · unfold setShadowGains
    cases s.splice.gainSel <;> exact ⟨rfl, rfl⟩

theorem copies_stageStore : ∃ table prog gains, copies (stageStore s space i v)
    = { copies s with shadowTable := table, shadowProg := prog, shadowGains := gains } :=
  match space with
  | 0 => ⟨_, _, _, copies_stageStore_table⟩
  | 1 => ⟨_, _, _, copies_stageStore_prog⟩
  | _ + 2 => ⟨_, _, _, copies_setShadowGains⟩

theorem active_of_stageStore (h : copies t = copies (stageStore s space i v)) :
    activeTable t = activeTable s ∧ activeProg t = activeProg s ∧ activeGains t = activeGains s := by
  obtain ⟨_, _, _, hs⟩ := copies_stageStore (s := s) (space := space) (i := i) (v := v)
  have kept := h.trans hs
  exact ⟨congrArg Copies.activeTable kept, congrArg Copies.activeProg kept, congrArg Copies.activeGains kept⟩

theorem stageStore_table : sget zero (shadowTable (stageStore s 0 i v)) i = v.setWidth 24
    ∧ ∀ j, j ≠ i → sget zero (shadowTable (stageStore s 0 i v)) j = sget zero (shadowTable s) j := by
  have put : shadowTable (stageStore s 0 i v) = sput zero (shadowTable s) i (v.setWidth 24) :=
    congrArg Copies.shadowTable copies_stageStore_table
  rw [put]
  exact ⟨sget_sput_same, fun _ => sget_sput_other⟩

theorem stageStore_table_unmarked (h : getB s Reg.splStagePtr 29 = false) : i ∉ (stageStore s 0 i v).splice.marks :=
  stageMark_unmarked (s := clearEcc _ _ _) h

theorem stageStore_prog : sget zero (shadowProg (stageStore s 1 i v)) i = v ∧ (stageStore s 1 i v).splice.progStaged = true
    ∧ ∀ j, j ≠ i → sget zero (shadowProg (stageStore s 1 i v)) j = sget zero (shadowProg s) j := by
  have put : shadowProg (stageStore s 1 i v) = sput zero (shadowProg s) i v :=
    congrArg Copies.shadowProg copies_stageStore_prog
  rw [put]
  exact ⟨sget_sput_same, rfl, fun _ => sget_sput_other⟩

theorem stageStore_gain (hi : i < 16) : vget (shadowGains (stageStore s 2 i v)) i 0 = (v.setWidth 24 &&& 0x80FFFF)
    ∧ ∀ j, j ≠ i → vget (shadowGains (stageStore s 2 i v)) j 0 = vget (shadowGains s) j 0 := by
  have put : shadowGains (stageStore s 2 i v) = vset (shadowGains s) i (v.setWidth 24 &&& 0x80FFFF) :=
    congrArg Copies.shadowGains copies_stageStore_gain
  rw [put]
  exact ⟨vget_vset_same hi, fun _ => vget_vset_other⟩

theorem stageDataWrite_taken (h : spliceTakes s src = true) (hp : stageSpace s ≤ 1 ∨ stageSpace s = 2 ∧ stageIndex s ≤ 15) :
    (stageDataWrite s src v).1 = setF (stageStore (spliceClaim s src) (stageSpace s) (stageIndex s) v) Reg.splStagePtr 12 0
      ((stageIndex s + 1) % 8192) := by
  have inside : (spliceTakes s src && !(stageSpace s == 2 && decide (stageIndex s > 15))) = true := by
    simp only [h, Bool.true_and, Bool.not_eq_true', Bool.and_eq_false_imp, beq_iff_eq, decide_eq_false_iff_not]
    omega
  rw [stageDataWrite, if_pos inside]

theorem stageDataWrite_stores (h : spliceTakes s src = true) (hp : stageSpace s ≤ 1 ∨ stageSpace s = 2 ∧ stageIndex s ≤ 15) :
    (stageDataWrite s src v).1.splice = (stageStore (spliceClaim s src) (stageSpace s) (stageIndex s) v).splice
    ∧ (stageDataWrite s src v).1.mem = (stageStore (spliceClaim s src) (stageSpace s) (stageIndex s) v).mem
    ∧ getF (stageDataWrite s src v).1 Reg.splStagePtr 12 0 = (stageIndex s + 1) % 8192 := by
  rw [stageDataWrite_taken h hp]
  exact ⟨setF_splice, setF_mem, (getF_setF (by decide) (by decide)).trans (Nat.mod_mod _ _)⟩

theorem stageDataWrite_refused (h : spliceTakes s src = false ∨ stageSpace s = 2 ∧ stageIndex s > 15) :
    (stageDataWrite s src v).1 = spliceRefuse s 4 := by
  have outside : (spliceTakes s src && !(stageSpace s == 2 && decide (stageIndex s > 15))) = false := by
    rcases h with h | ⟨h2, hi⟩
    · simp [h]
    · simp [h2, hi]
  rw [stageDataWrite, if_neg (Bool.eq_false_iff.1 outside)]

/-! ### The staging pointer (R480, R487) -/

/-- The pointer takes SPACE from v, a reserved SPACE keeping it (R480). -/
def ptrSpace (s : State) (v : Word) : State :=
  if fld v 31 30 = 3 then s else setF s Reg.splStagePtr 31 30 (fld v 31 30)

theorem ptrSpace_shape : ∃ regs, ptrSpace s v = { s with regs := regs } := by
  unfold ptrSpace
  split <;> exact ⟨_, rfl⟩

theorem getF_ptrSpace : getF (ptrSpace s v) Reg.splStagePtr 31 30
    = if fld v 31 30 = 3 then getF s Reg.splStagePtr 31 30 else fld v 31 30 := by
  unfold ptrSpace
  split
  · rfl
  · exact (getF_setF (by decide) (by decide)).trans (Nat.mod_eq_of_lt fld_lt)

theorem stagePtrWrite_taken (h : spliceTakes s src = true) : (stagePtrWrite s src v).1
    = setF (setB (ptrSpace (spliceClaim s src) v) Reg.splStagePtr 29 (bit v 29)) Reg.splStagePtr 12 0 (fld v 12 0) := by
  simp only [stagePtrWrite, h, ↓reduceIte, ptrSpace]

theorem stagePtrWrite_refused (h : spliceTakes s src = false) : (stagePtrWrite s src v).1 = spliceRefuse s 4 := by
  simp [stagePtrWrite, h]

theorem stagePtrWrite_claims (h : spliceTakes s src = true) : (stagePtrWrite s src v).1.splice = (spliceClaim s src).splice
    ∧ (stagePtrWrite s src v).1.mem = s.mem ∧ (stagePtrWrite s src v).1.lay = s.lay := by
  obtain ⟨_, hs⟩ := ptrSpace_shape (s := spliceClaim s src) (v := v)
  rw [stagePtrWrite_taken h, setF_splice, setB_splice, setF_mem, setB_mem, setF_lay, setB_lay, hs]
  exact ⟨rfl, rfl, rfl⟩

theorem stagePtrWrite_pointer (h : spliceTakes s src = true) :
    getF (stagePtrWrite s src v).1 Reg.splStagePtr 12 0 = fld v 12 0
    ∧ getB (stagePtrWrite s src v).1 Reg.splStagePtr 29 = bit v 29
    ∧ getF (stagePtrWrite s src v).1 Reg.splStagePtr 31 30
      = if fld v 31 30 = 3 then getF s Reg.splStagePtr 31 30 else fld v 31 30 := by
  rw [stagePtrWrite_taken h]
  refine ⟨?_, ?_, ?_⟩
  · exact (getF_setF (by decide) (by decide)).trans (Nat.mod_eq_of_lt fld_lt)
  · rw [getB_setF_other (by decide) (by decide) (by decide), getB_setB (by decide)]
  · rw [getF_setF_other (by decide) (by decide) (by decide), getF_setB_other (by decide) (by decide), getF_ptrSpace]
    rfl

theorem spliceClaim_marks (h : s.splice.state = .idle) : (spliceClaim s src).splice.marks = [] := by
  simp [spliceClaim, h]

/-! ### Commits (R493, R494) -/

/-- The unit armed by src for a frame, or for the next tick (R493, R494). -/
def armFor (s : State) (src : Source) (frame : Word) (late : Bool) : State :=
  setReg { spliceClaim s src with splice := { (spliceClaim s src).splice with
    state := .armed, armG := getF s Reg.splGlide 12 0, armNext := late } } Reg.splCommitFrame frame

theorem commitWrite_arms (h : spliceTakes s src = true) (hl : atOrPast (frameNo s) v = false ∨ getB s Reg.splCtrl 0 = true) :
    (commitWrite s src v).1 = if atOrPast (frameNo s) v then setB (armFor s src v (atOrPast (frameNo s) v)) Reg.splStatus 7 true
      else armFor s src v (atOrPast (frameNo s) v) := by
  have on_time : (atOrPast (frameNo s) v && !getB s Reg.splCtrl 0) = false := by
    rcases hl with hl | hl <;> simp [hl]
  simp only [commitWrite, h, on_time]
  rfl

theorem commitWrite_armed (h : spliceTakes s src = true) (hl : atOrPast (frameNo s) v = false ∨ getB s Reg.splCtrl 0 = true) :
    (commitWrite s src v).1.splice = (armFor s src v (atOrPast (frameNo s) v)).splice ∧ (commitWrite s src v).1.mem = s.mem
    ∧ getReg (commitWrite s src v).1 Reg.splCommitFrame = v
    ∧ getB (commitWrite s src v).1 Reg.splStatus 7 = (atOrPast (frameNo s) v || getB s Reg.splStatus 7) := by
  rw [commitWrite_arms h hl]
  generalize atOrPast (frameNo s) v = late
  have frame : getReg (armFor s src v late) Reg.splCommitFrame = v := getReg_setReg
  have flag : getB (armFor s src v late) Reg.splStatus 7 = getB s Reg.splStatus 7 :=
    congrArg (bit · 7) (getReg_setReg_other (by decide))
  have hm : (armFor s src v late).mem = s.mem := rfl
  generalize armFor s src v late = t at *
  cases late
  · exact ⟨rfl, hm, frame, flag⟩
  · exact ⟨rfl, hm, (getReg_setB_other (by decide)).trans frame, getB_setB (by decide)⟩

theorem commitWrite_late (h : spliceTakes s src = true) (hl : atOrPast (frameNo s) v = true) (ha : getB s Reg.splCtrl 0 = false) :
    (commitWrite s src v).1
      = sysEvent (setB (logPush (spliceHeard s src) (lateItem s src v)) Reg.splStatus 6 true) 2 := by
  simp [commitWrite, h, hl, ha]

theorem commitWrite_refused (h : spliceTakes s src = false) : (commitWrite s src v).1 = spliceRefuse s 5 := by
  simp [commitWrite, h]

theorem spliceHeard_shape : ∃ since, spliceHeard s src = { s with splice := { s.splice with since := since } } := by
  unfold spliceHeard
  split <;> exact ⟨_, rfl⟩

@[simp] theorem logPush_splice {it : LogItem} : (logPush s it).splice = s.splice := by
  unfold logPush logDrop
  split
  · rw [setB_splice, countUp_splice]
  · rfl

@[simp] theorem logPush_mem {it : LogItem} : (logPush s it).mem = s.mem := by
  unfold logPush logDrop
  split
  · rw [setB_mem, countUp_mem]
  · rfl

theorem getReg_logPush {it : LogItem} (h : q ≠ Reg.cltLogHead) : getReg (logPush s it) q = getReg s q := by
  unfold logPush logDrop
  split
  · rw [getReg_setB_other h, getReg_countUp_other h]
  · rfl

theorem logPush_queue {it : LogItem} (hf : getB s Reg.cltLogHead 22 = false) (hq : s.cleat.queue.length < 4) :
    (logPush s it).cleat.queue = s.cleat.queue ++ [it] := by
  have room : ¬s.cleat.queue.length ≥ 4 := by omega
  simp [logPush, hf, room]

@[simp] theorem sysEvent_splice : (sysEvent s n).splice = s.splice := by
  obtain ⟨_, _, h⟩ := sysEvent_shape (s := s) (k := n)
  rw [h]

@[simp] theorem sysEvent_mem : (sysEvent s n).mem = s.mem := by
  obtain ⟨_, _, h⟩ := sysEvent_shape (s := s) (k := n)
  rw [h]

@[simp] theorem sysEvent_cleat : (sysEvent s n).cleat = s.cleat := by
  obtain ⟨_, _, h⟩ := sysEvent_shape (s := s) (k := n)
  rw [h]

theorem lateItem_code : (lateItem s src v).code = .spliceLate := by cases src <;> rfl

theorem lateItem_detail : (lateItem s src v).detail = v := by cases src <;> rfl

/-- A late commit is refused: its item waits for the log, and the commit's frame and the staging stay (R494). -/
theorem commitWrite_late_keeps (h : spliceTakes s src = true) (hl : atOrPast (frameNo s) v = true)
    (ha : getB s Reg.splCtrl 0 = false) :
    (commitWrite s src v).1.splice = (spliceHeard s src).splice ∧ (commitWrite s src v).1.mem = s.mem
    ∧ (commitWrite s src v).1.cleat.queue = (logPush (spliceHeard s src) (lateItem s src v)).cleat.queue
    ∧ getB (commitWrite s src v).1 Reg.splStatus 6 = true
    ∧ getReg (commitWrite s src v).1 Reg.splCommitFrame = getReg s Reg.splCommitFrame := by
  rw [commitWrite_late h hl ha]
  obtain ⟨_, heard⟩ := spliceHeard_shape (s := s) (src := src)
  refine ⟨by simp, ?_, by simp, ?_, ?_⟩
  · rw [sysEvent_mem, setB_mem, logPush_mem, heard]
  · rw [getB, getReg_sysEvent (by decide) (by decide)]
    exact getB_setB (by decide)
  · rw [getReg_sysEvent (by decide) (by decide), getReg_setB_other (by decide), getReg_logPush (by decide), heard]
    rfl

/-! ### CANCEL (R489, R490, R515) -/

/-- Staging is discarded; an armed commit's frame gives way to that of the last to fire (R490, R515). -/
def cancelled (s : State) : State :=
  if s.splice.state = .armed then setReg (spliceDiscard s) Reg.splCommitFrame s.splice.fired else spliceDiscard s

theorem spliceCancel_owner (h : s.splice.state = .staging ∨ s.splice.state = .armed) (ho : s.splice.owner = ownerOf src) :
    spliceCancel s src = (cancelled s, false) := by
  rcases h with h | h <;> simp [spliceCancel, cancelled, h, ho]

theorem spliceCancel_refused (h : s.splice.state = .idle ∨ s.splice.state = .backfill ∨ s.splice.owner ≠ ownerOf src) :
    spliceCancel s src = (spliceRefuse s 5, true) := by
  rcases h with h | h | h <;> simp [spliceCancel, h]

theorem splCtrlWrite_cancel : splCtrlWrite s src 0x100 0x2
    = if (spliceCancel s src).2 then ((spliceCancel s src).1, true)
      else (plainWrite (spliceCancel s src).1 Reg.splCtrl 0x100 0x2, false) := rfl

theorem splCtrlWrite_cancel_owner (h : s.splice.state = .staging ∨ s.splice.state = .armed) (ho : s.splice.owner = ownerOf src) :
    (splCtrlWrite s src 0x100 0x2).1 = plainWrite (cancelled s) Reg.splCtrl 0x100 0x2 := by
  rw [splCtrlWrite_cancel, spliceCancel_owner h ho]
  rfl

theorem splCtrlWrite_cancel_refused (h : s.splice.state = .idle ∨ s.splice.state = .backfill ∨ s.splice.owner ≠ ownerOf src) :
    (splCtrlWrite s src 0x100 0x2).1 = spliceRefuse s 5 := by
  rw [splCtrlWrite_cancel, spliceCancel_refused h]
  rfl

@[simp] theorem plainWrite_splice {be : Nat} : (plainWrite s r v be).splice = s.splice := rfl

@[simp] theorem plainWrite_mem {be : Nat} : (plainWrite s r v be).mem = s.mem := rfl

theorem getReg_plainWrite_other {be : Nat} (h : q ≠ r) : getReg (plainWrite s r v be) q = getReg s q := getReg_setReg_other h

theorem cancelled_discards : (cancelled s).splice = (spliceDiscard s).splice ∧ (cancelled s).mem = s.mem := by
  unfold cancelled
  split <;> exact ⟨rfl, rfl⟩

theorem getReg_cancelled : getReg (cancelled s) Reg.splCommitFrame
    = if s.splice.state = .armed then s.splice.fired else getReg s Reg.splCommitFrame := by
  unfold cancelled
  split
  · exact getReg_setReg
  · rfl

/-! ### The statement -/

/-- Settles O42. Each clause runs its command to the state after the write of its register; from there the lemmas on that
write, taken or refused, give what the clause names. -/
theorem spliceWrites : Obligations.SpliceWrites := by
  intro s src v
  refine ⟨fun h => ⟨fun ht => ⟨_, exec_stagePtrWrite h, ?_⟩, fun hi hm => ⟨_, exec_stagePtrWrite h, ?_⟩⟩,
    fun h => ⟨fun ht hp => ⟨_, exec_stageDataWrite h, ?_⟩, fun hr => ⟨_, exec_stageDataWrite h, ?_⟩⟩,
    fun h => ⟨fun ht hl => ⟨_, exec_commitWrite h, ?_⟩, fun ht hl ha => ⟨_, exec_commitWrite h, ?_⟩,
      fun hi hm => ⟨_, exec_commitWrite h, ?_⟩⟩,
    fun h => ⟨fun hs ho => ⟨_, exec_spliceCancel h, ?_⟩, fun hr => ⟨_, exec_spliceCancel h, ?_⟩⟩⟩
  · have taken := spliceTakes_iff.2 ht
    obtain ⟨hs, hm, hl⟩ := stagePtrWrite_claims (v := v) taken
    obtain ⟨index, mark, hsp⟩ := stagePtrWrite_pointer (v := v) taken
    dsimp only
    rw [pinSettle_splice, pinSettle_mem, pinSettle_lay, getF_pinSettle (by decide), getF_pinSettle (by decide),
      getB_pinSettle (by decide), hs]
    exact ⟨rfl, rfl, rfl, spliceClaim_marks, index, mark, hsp, hm, hl⟩
  · rw [stagePtrWrite_refused (spliceTakes_eq_false hi hm)]
    exact spliceRefuse_only_flags (by decide)
  · obtain ⟨hs, hm, advance⟩ := stageDataWrite_stores (v := v) (spliceTakes_iff.2 ht) hp
    have stored := copies_congr (pinSettle_mem.trans hm) (pinSettle_splice.trans hs)
    obtain ⟨table, prog, gains⟩ := active_of_stageStore stored
    rw [pinSettle_splice, getF_pinSettle (by decide), hs]
    refine ⟨stageStore_owner.1, stageStore_owner.2, advance, table, prog, gains, fun h0 => ?_, fun h1 => ?_, fun h2 => ?_⟩
    · rw [show shadowTable _ = _ from congrArg Copies.shadowTable stored, show stageSpace s = 0 from h0]
      exact ⟨stageStore_table.1, stageStore_table.2, fun unmarked => stageStore_table_unmarked (s := spliceClaim s src) unmarked⟩
    · rw [show shadowProg _ = _ from congrArg Copies.shadowProg stored, show stageSpace s = 1 from h1]
      exact stageStore_prog
    · rw [show shadowGains _ = _ from congrArg Copies.shadowGains stored, show stageSpace s = 2 from h2]
      exact stageStore_gain (Nat.lt_succ_of_le (hp.resolve_left (by omega)).2)
  · have refused : spliceTakes s src = false ∨ stageSpace s = 2 ∧ stageIndex s > 15 :=
      hr.imp_left fun ⟨hi, hm⟩ => spliceTakes_eq_false hi hm
    rw [stageDataWrite_refused refused]
    exact spliceRefuse_only_flags (by decide)
  · obtain ⟨hs, hm, frame, asap⟩ := commitWrite_armed (spliceTakes_iff.2 ht) hl
    rw [pinSettle_splice, pinSettle_mem, getReg_pinSettle (by decide), getB_pinSettle (by decide), hs]
    exact ⟨rfl, rfl, frame, rfl, rfl, asap, hm⟩
  · obtain ⟨hs, hm, hq, late, frame⟩ := commitWrite_late_keeps (spliceTakes_iff.2 ht) hl ha
    obtain ⟨_, heard⟩ := spliceHeard_shape (s := s) (src := src)
    rw [pinSettle_splice, pinSettle_mem, pinSettle_queue, getReg_pinSettle (by decide), getB_pinSettle (by decide), hs, hq]
    rw [heard]
    exact ⟨rfl, rfl, late, frame, hm, fun hf hr => ⟨_, logPush_queue hf hr, lateItem_code, lateItem_detail⟩⟩
  · rw [commitWrite_refused (spliceTakes_eq_false hi hm)]
    exact spliceRefuse_only_flags (by decide)
  · obtain ⟨hd, hm⟩ := cancelled_discards (s := s)
    rw [splCtrlWrite_cancel_owner hs ho, pinSettle_splice, pinSettle_mem, getReg_pinSettle (by decide), plainWrite_splice,
      plainWrite_mem, getReg_plainWrite_other (by decide), hd]
    exact ⟨rfl, rfl, rfl, rfl, getReg_cancelled, rfl, rfl, rfl, hm⟩
  · rw [splCtrlWrite_cancel_refused hr]
    exact spliceRefuse_only_flags (by decide)

end Sys2Proof.Machine
end

section
/-! SUPPORT. What reporting leaves alone: flags, events, the fault log and FAULT#. Then what each measurement at the sinks
answers (R92 to R95, R817 to R827), and the statement on temperatures, IREF, sink diagnostics and FS inputs (O58). -/

namespace Sys2Proof.Machine
open Claim

variable {s t u : State} {m : Thermal} {o : Option Nat} {x : BitVec 12} {code : FaultCode} {d : Word} {r n k b : Nat}

/-! ### Reporting -/

/-- Between s and t only registers, events and Cleat have changed. -/
def OnlyReports (s t : State) : Prop :=
  ∃ regs events cleat, t = { s with regs := regs, events := events, cleat := cleat }

theorem OnlyReports.refl : OnlyReports s s := ⟨_, _, _, rfl⟩

theorem OnlyReports.trans (h : OnlyReports s t) (h' : OnlyReports t u) : OnlyReports s u := by
  obtain ⟨_, _, _, rfl⟩ := h
  obtain ⟨_, _, _, rfl⟩ := h'
  exact ⟨_, _, _, rfl⟩

theorem OnlyReports.light (h : OnlyReports s t) : t.light = s.light := by
  obtain ⟨_, _, _, rfl⟩ := h
  rfl

theorem OnlyReports.power (h : OnlyReports s t) : t.power = s.power := by
  obtain ⟨_, _, _, rfl⟩ := h
  rfl

theorem OnlyReports.lay (h : OnlyReports s t) : t.lay = s.lay := by
  obtain ⟨_, _, _, rfl⟩ := h
  rfl

theorem OnlyReports.mem (h : OnlyReports s t) : t.mem = s.mem := by
  obtain ⟨_, _, _, rfl⟩ := h
  rfl

theorem pinSettle_onlyReports : OnlyReports s (pinSettle s) := by
  obtain ⟨_, _, _, h, -⟩ := pinSettle_shape (s := s)
  exact ⟨_, _, _, h⟩

theorem sysEvent_onlyReports : OnlyReports s (sysEvent s k) := by
  obtain ⟨_, _, h⟩ := sysEvent_shape (s := s) (k := k)
  exact ⟨_, _, _, h⟩

theorem countUp_onlyReports {hi lo : Nat} : OnlyReports s (countUp s r hi lo) := ⟨_, _, _, rfl⟩

theorem setB_onlyReports {v : Bool} : OnlyReports s (setB s r n v) := ⟨_, _, _, rfl⟩

theorem raiseFlag_onlyReports : OnlyReports s (raiseFlag s r n k) :=
  setB_onlyReports.trans sysEvent_onlyReports

theorem logHw_onlyReports : OnlyReports s (logHw s code d) := by
  unfold logHw logPush
  split
  · exact countUp_onlyReports.trans setB_onlyReports
  · exact ⟨_, _, _, rfl⟩

theorem getB_sysEvent (hk : k < 32) : getB (sysEvent s k) Reg.sysEvents k = true := by
  have flag : getB (setB s Reg.sysEvents k true) Reg.sysEvents k = true := getB_setB hk
  unfold sysEvent
  dsimp only
  split
  · rwa [getB, getReg_postEvent (by decide)]
  · exact flag

theorem getB_raiseFlag (hn : n < 32) (he : r ≠ Reg.sysEvents) (hp : r ≠ Reg.layEvtPend) :
    getB (raiseFlag s r n k) r n = true := by
  rw [raiseFlag, getB, getReg_sysEvent he hp]
  exact getB_setB hn

/-! ### Temperatures (R818, R819) -/

/-- The die factor lies within half a unit of the line from 256 at TSTART to 128 at 150 °C (R818). -/
theorem dieFactor_between {tj : Int} {start : Nat} (above : 10 * start < tj) (below : tj < 1500) :
    let exact := 256 * (1500 - 10 * (start : Int)) - 128 * (tj - 10 * start)
    2 * (dieFactor tj start : Int) * (1500 - 10 * start) ≤ 2 * exact + (1500 - 10 * start)
    ∧ 2 * exact < 2 * (dieFactor tj start : Int) * (1500 - 10 * start) + (1500 - 10 * start) := by
  intro exact
  obtain ⟨den, hden⟩ : ∃ den : Int, den = 1500 - 10 * start := ⟨_, rfl⟩
  have den_pos : 0 < den := by omega
  have exact_pos : 0 ≤ exact := by omega
  have factor : (dieFactor tj start : Int) = (2 * exact + den) / (2 * den) := by
    have nonneg : 0 ≤ (2 * exact + den) / (2 * den) := Int.ediv_nonneg (by omega) (by omega)
    rw [dieFactor, if_neg (by omega), if_neg (by omega), roundHalfUp, ← hden, Int.toNat_of_nonneg den_pos.le]
    simpa only [exact, ← hden] using Int.toNat_of_nonneg nonneg
  have quotient := Int.mul_ediv_add_emod (2 * exact + den) (2 * den)
  have rest_nonneg := Int.emod_nonneg (2 * exact + den) (b := 2 * den) (by omega)
  have rest_lt := Int.emod_lt_of_pos (2 * exact + den) (b := 2 * den) (by omega)
  rw [← factor] at quotient
  have product : 2 * (dieFactor tj start : Int) * den = 2 * den * dieFactor tj start := by ring
  rw [← hden, product]
  omega

theorem ntcFactor_disabled {cfg : Word} (h : bit cfg 31 = false) : ntcFactor cfg r = (256, false) := by simp [ntcFactor, h]

/-- A full temperature measurement with both NTCs disabled has been taken; nothing is reported yet. -/
def dieMeasured (s : State) (m : Thermal) : State :=
  { s with
    light := { s.light with
      fNext := min 256 (dieFactor m.tj (getF s Reg.snkDerate 15 8)), tj := m.tj, measured := true, ntcBad0 := false,
      ntcBad1 := false, ntcSeen := true, dieRaw := m.raw, ntc0 := m.ntc0, ntc1 := m.ntc1 },
    power := { s.power with hotFs := s.power.hotFs && decide (m.tj ≥ 1500) } }

/-- The measurement is reported: FAULT# follows it, and a start of derating is logged with detail d. -/
def derateReported (began : Bool) (d : Word) (s : State) : State :=
  pinSettle (if began then sysEvent (logHw s .thermalDerate d) 5 else s)

theorem derateReported_onlyReports {began : Bool} : OnlyReports s (derateReported began d s) := by
  refine OnlyReports.trans ?_ pinSettle_onlyReports
  split
  · exact logHw_onlyReports.trans sysEvent_onlyReports
  · exact OnlyReports.refl

theorem derateReported_event : getB (derateReported true d s) Reg.sysEvents 5 = true := by
  rw [derateReported, getB_pinSettle (by decide), if_pos rfl]
  exact getB_sysEvent (by decide)

theorem exec_thermalMeasure (hf : s.power.factory = false) (hm : slackMode s.power.mode = true)
    (h0 : getB s (Reg.snkNtc 0) 31 = false) (h1 : getB s (Reg.snkNtc 1) 31 = false) :
    ∃ d, exec (.thermalMeasure m) s
      = .next (derateReported (s.light.fNext == 256 && decide ((dieMeasured s m).light.fNext < 256)) d (dieMeasured s m)) := by
  have awake : ¬(s.power.mode == .off || s.power.factory) = true := by
    rw [hf, Bool.or_false, beq_iff_eq]
    intro off
    rw [off] at hm
    cases hm
  have full : measures s.power.mode = true := hm
  suffices ∃ d, execThermalMeasure m s = _ from this
  unfold execThermalMeasure
  simp only [if_neg awake, full, ntcFactor_disabled h0, ntcFactor_disabled h1, if_true, Bool.or_true, Nat.min_self,
    Nat.min_comm _ 256]
  exact ⟨_, rfl⟩

/-! ### The reference resistor (R92 to R95) -/

/-- R_IREF is under the lower limit. -/
def irefIsLow (o : Option Nat) : Bool := o.any (fun r => decide (r < 15000))

/-- R_IREF is over the upper limit, or the pin is open. -/
def irefIsHigh (o : Option Nat) : Bool := o.all (fun r => decide (r > 130000))

/-- R_IREF has been judged; nothing is reported yet. -/
def irefJudged (s : State) (o : Option Nat) : State :=
  { s with light := { s.light with irefLow := irefIsLow o, irefHigh := irefIsHigh o, ifs := fullScale o } }

/-- The judgement is reported: a resistor out of its limits sets SNK_IREF's flag. -/
def irefReported (s : State) (o : Option Nat) : State :=
  if irefIsLow o || irefIsHigh o then raiseFlag (irefJudged s o) Reg.snkIref 29 4 else irefJudged s o

theorem exec_irefCheck (hm : s.power.mode ≠ .off) (hf : s.power.factory = false) :
    exec (.irefCheck o) s = .next (irefReported s o) := by
  have awake : ¬(s.power.mode == .off || s.power.factory) = true := by simp [hm, hf]
  refine (if_neg awake).trans ?_
  cases o <;> rfl

theorem irefReported_onlyReports : OnlyReports (irefJudged s o) (irefReported s o) := by
  unfold irefReported
  split
  · exact raiseFlag_onlyReports
  · exact OnlyReports.refl

theorem irefReported_flag (h : (irefIsLow o || irefIsHigh o) = true) : getB (irefReported s o) Reg.snkIref 29 = true := by
  rw [irefReported, if_pos h]
  exact getB_raiseFlag (by decide) (by decide) (by decide)

theorem irefReported_within (hl : irefIsLow o = false) (hh : irefIsHigh o = false) : (irefReported s o).regs = s.regs := by
  rw [irefReported, hl, hh]
  rfl

theorem fullScale_between (hl : 15000 ≤ r) (hh : r ≤ 130000) :
    2 * fullScale (some r) * r ≤ 240000000 + r ∧ 240000000 < 2 * fullScale (some r) * r + r := by
  have scale : fullScale (some r) = (240000000 + r) / (2 * r) :=
    (if_neg (by omega)).trans (if_neg (by omega))
  have quotient := Nat.div_add_mod (240000000 + r) (2 * r)
  have rest_lt := Nat.mod_lt (240000000 + r) (y := 2 * r) (by omega)
  have product : 2 * fullScale (some r) * r = 2 * r * fullScale (some r) := by ring
  rw [← scale] at quotient
  rw [product]
  omega

/-! ### A diagnostics step begins (R822 to R825) -/

/-- The step of sink n has begun. -/
def stepBegun (s : State) (n : Nat) : State :=
  { s with light := { s.light with lastCh := n, step := some n, sampled := false, lasted := 0 } }

theorem exec_diagStepBegin (hr : sweepRuns s = true) (hs : s.light.step = none) (hg : s.light.gapLeft = 0)
    (hn : diagNext s = some n) :
    let l := vget s.light.latch n ⟨255, 0, false, false, 256⟩
    exec .diagStepBegin s = .next (if l.duty < 512 ∨ l.code = 0 then diagEnd (stepBegun s n) else stepBegun s n) := by
  have due : ¬(!sweepRuns s || s.light.step.isSome || s.light.gapLeft != 0) = true := by simp [hr, hs, hg]
  refine (if_neg due).trans ?_
  rw [hn]
  rfl

/-- A step that ends before its sample notes that there was no measurement. -/
theorem diagEnd_stepBegun (hn : n < 24) (hw : s.light.waiting = []) :
    (diagEnd (stepBegun s n)).light.step = none ∧ (diagEnd (stepBegun s n)).light.lastCh = n
    ∧ (vget (diagEnd (stepBegun s n)).light.diag n ⟨0, 0, false, .good⟩).noMeas = true
    ∧ (diagEnd (stepBegun s n)).regs = s.regs ∧ (diagEnd (stepBegun s n)).lay = s.lay ∧ (diagEnd (stepBegun s n)).mem = s.mem := by
  have ended : diagEnd (stepBegun s n) = { stepBegun s n with light := { (stepBegun s n).light with
      step := none, sampled := false, lasted := 0, waiting := [], gapLeft := getF s Reg.snkGlobal 27 24 + 1,
      diag := vset s.light.diag n { vget s.light.diag n ⟨0, 0, false, .good⟩ with noMeas := true } } } := by
    simp only [diagEnd, stepBegun, hw, List.foldl_nil, Bool.not_false]
    rfl
  rw [ended]
  exact ⟨rfl, rfl, congrArg SinkDiag.noMeas (vget_vset_same hn), rfl, rfl, rfl⟩

/-! ### A diagnostics sample (R824, R826, R827) -/

/-- The diagnostics of sink n as kept. -/
def diagOf (s : State) (n : Nat) : SinkDiag := vget s.light.diag n ⟨0, 0, false, .good⟩

/-- REF + 1.4 × VF, over which a sample is a short (R826). -/
def shortLimit (s : State) (n : Nat) : Nat := (diagOf s n).ref + (14 * getF s (Reg.snkCfg n) 15 8 + 5) / 10

theorem diagJudge_opened {v : Nat} (h : v < getF s Reg.snkGlobal 7 0) : diagJudge s n v = .opened := if_pos h

theorem diagJudge_shorted {v : Nat} (h : v ≥ getF s Reg.snkGlobal 7 0) (hr : (diagOf s n).ref ≠ 0) (hv : v > shortLimit s n) :
    diagJudge s n v = .shorted :=
  (if_neg (Nat.not_lt.2 h)).trans (if_pos ⟨hr, hv⟩)

theorem diagJudge_good {v : Nat} (h : v ≥ getF s Reg.snkGlobal 7 0) (hv : (diagOf s n).ref = 0 ∨ v ≤ shortLimit s n) :
    diagJudge s n v = .good :=
  (if_neg (Nat.not_lt.2 h)).trans (if_neg fun ⟨hr, hl⟩ => hv.elim hr (Nat.not_le.2 hl))

/-- The diagnostics of sink n after sample x. -/
def diagAfter (s : State) (n : Nat) (x : BitVec 12) : SinkDiag :=
  { last := x.toNat
    ref := if diagJudge s n x.toNat == .good then diagRef (diagOf s n).ref x.toNat else (diagOf s n).ref
    noMeas := false
    verdict := diagJudge s n x.toNat }

/-- Sample x of sink n has been taken, and the monitors have had it; nothing is reported yet. -/
def sampleTaken (s : State) (n : Nat) (x : BitVec 12) : State :=
  tallySample { s with light := { s.light with sampled := true, diag := vset s.light.diag n (diagAfter s n x) } } 0x7 n false x.toNat

/-- A fault of sink n is reported (R827): its flag, its log entry and FAULT#. -/
def sinkFault (s : State) (n : Nat) (x : BitVec 12) (b : Nat) (code : FaultCode) : State :=
  pinSettle (logHw (raiseFlag s (Reg.snkDiag n) b 4) code (BitVec.ofNat 32 (x.toNat * 65536 + n)))

/-- Sample x of sink n has been taken and its verdict reported, where the sample before had the same. -/
def sampleReported (s : State) (n : Nat) (x : BitVec 12) : State :=
  match diagJudge s n x.toNat with
  | .good => sampleTaken s n x
  | .opened => if (diagOf s n).verdict == .opened then sinkFault (sampleTaken s n x) n x 31 .sinkOpen else sampleTaken s n x
  | .shorted => if (diagOf s n).verdict == .shorted then sinkFault (sampleTaken s n x) n x 30 .sinkShort else sampleTaken s n x

theorem exec_diagSample (hs : s.light.step = some n) (ht : s.light.sampled = false) :
    exec (.diagSample (some x)) s = .next (sampleReported s n x) := by
  show execDiagSample (some x) s = _
  unfold execDiagSample
  split
  next n' x' hs' hx =>
    obtain rfl : n' = n := Option.some.inj (hs'.symm.trans hs)
    obtain rfl : x = x' := Option.some.inj hx
    exact if_neg (ne_true_of_eq_false ht)
  next other => exact (other n x hs rfl).elim

theorem sinkFault_onlyReports : OnlyReports s (sinkFault s n x b code) :=
  (raiseFlag_onlyReports.trans logHw_onlyReports).trans pinSettle_onlyReports

theorem snkDiag_ne_shared (hn : n < 24) : Reg.snkDiag n ≠ Reg.sysFaultPin ∧ Reg.snkDiag n ≠ Reg.cltLogHead
    ∧ Reg.snkDiag n ≠ Reg.sysEvents ∧ Reg.snkDiag n ≠ Reg.layEvtPend := by
  simp only [Reg.snkDiag, Reg.sysFaultPin, Reg.cltLogHead, Reg.sysEvents, Reg.layEvtPend, rid]
  omega

theorem sinkFault_flag (hn : n < 24) (hb : b < 32) : getB (sinkFault s n x b code) (Reg.snkDiag n) b = true := by
  obtain ⟨pin, head, events, pend⟩ := snkDiag_ne_shared hn
  rw [sinkFault, getB_pinSettle pin, getB, logHw, getReg_logPush head]
  exact getB_raiseFlag hb events pend

theorem sampleReported_onlyReports : OnlyReports (sampleTaken s n x) (sampleReported s n x) := by
  have reported {c : Prop} [Decidable c] {b : Nat} {code : FaultCode} :
      OnlyReports (sampleTaken s n x) (if c then sinkFault (sampleTaken s n x) n x b code else sampleTaken s n x) := by
    split
    · exact sinkFault_onlyReports
    · exact OnlyReports.refl
  unfold sampleReported
  split
  · exact OnlyReports.refl
  · exact reported
  · exact reported

theorem sampleReported_diag (hn : n < 24) : diagOf (sampleReported s n x) n = diagAfter s n x := by
  rw [diagOf, sampleReported_onlyReports.light]
  exact vget_vset_same hn

theorem sampleReported_opened (hn : n < 24) (hx : x.toNat < getF s Reg.snkGlobal 7 0) :
    (diagAfter s n x).verdict = .opened ∧ (diagAfter s n x).ref = (diagOf s n).ref
    ∧ ((diagOf s n).verdict = .opened → getB (sampleReported s n x) (Reg.snkDiag n) 31 = true) := by
  have judged : diagJudge s n x.toNat = .opened := diagJudge_opened hx
  simp only [diagAfter, sampleReported, judged]
  refine ⟨trivial, rfl, fun before => ?_⟩
  rw [if_pos (beq_iff_eq.2 before)]
  exact sinkFault_flag hn (by decide)

theorem sampleReported_shorted (hn : n < 24) (hx : x.toNat ≥ getF s Reg.snkGlobal 7 0) (hr : (diagOf s n).ref ≠ 0)
    (hl : x.toNat > shortLimit s n) :
    (diagAfter s n x).verdict = .shorted ∧ (diagAfter s n x).ref = (diagOf s n).ref
    ∧ ((diagOf s n).verdict = .shorted → getB (sampleReported s n x) (Reg.snkDiag n) 30 = true) := by
  have judged : diagJudge s n x.toNat = .shorted := diagJudge_shorted hx hr hl
  simp only [diagAfter, sampleReported, judged]
  refine ⟨trivial, rfl, fun before => ?_⟩
  rw [if_pos (beq_iff_eq.2 before)]
  exact sinkFault_flag hn (by decide)

/-- The first good sample becomes the reference. -/
theorem diagAfter_first (hx : x.toNat ≥ getF s Reg.snkGlobal 7 0) (hr : (diagOf s n).ref = 0) :
    (diagAfter s n x).verdict = .good ∧ (diagAfter s n x).ref = x.toNat := by
  have judged : diagJudge s n x.toNat = .good := diagJudge_good hx (.inl hr)
  simp only [diagAfter, judged]
  exact ⟨trivial, if_pos hr⟩

theorem sampleReported_good (hx : x.toNat ≥ getF s Reg.snkGlobal 7 0) (hl : x.toNat ≤ shortLimit s n) :
    (diagAfter s n x).verdict = .good ∧ (sampleReported s n x).regs = s.regs := by
  have judged : diagJudge s n x.toNat = .good := diagJudge_good hx (.inr hl)
  simp only [diagAfter, sampleReported, judged]
  exact ⟨trivial, rfl⟩

/-! ### Occasions that are absent -/

theorem exec_diagStepBegin_idle (h : sweepRuns s = false ∨ s.light.step ≠ none ∨ s.light.gapLeft ≠ 0) :
    exec .diagStepBegin s = .next s := by
  refine if_pos ?_
  simpa [Option.isSome_iff_ne_none, or_assoc] using h

theorem exec_diagSample_idle {v : Option (BitVec 12)} (h : s.light.step = none ∨ v = none ∨ s.light.sampled = true) :
    exec (.diagSample v) s = .next s := by
  show execDiagSample v s = _
  unfold execDiagSample
  split
  next hs => exact if_pos ((h.resolve_left (by simp [hs])).resolve_left nofun)
  next => rfl

/-! ### The statement -/

theorem thermalMeasure_disabledNtcs (hf : s.power.factory = false) (hm : slackMode s.power.mode = true)
    (h0 : getB s (Reg.snkNtc 0) 31 = false) (h1 : getB s (Reg.snkNtc 1) 31 = false) :
    Does (.thermalMeasure m) s (fun t => t.light = (dieMeasured s m).light ∧ t.power = (dieMeasured s m).power
      ∧ (s.light.fNext = 256 → t.light.fNext < 256 → getB t Reg.sysEvents 5 = true) ∧ t.lay = s.lay ∧ t.mem = s.mem) := by
  obtain ⟨d, run⟩ := exec_thermalMeasure (m := m) hf hm h0 h1
  have reports := derateReported_onlyReports (d := d) (s := dieMeasured s m)
    (began := s.light.fNext == 256 && decide ((dieMeasured s m).light.fNext < 256))
  refine ⟨_, run, reports.light, reports.power, fun full derated => ?_, reports.lay, reports.mem⟩
  rw [reports.light] at derated
  rw [full, decide_eq_true derated]
  exact derateReported_event

/-- Settles O58. A measurement changes the sinks' state and then only reports: what it leaves alone comes from OnlyReports,
what it flags from the flag's own lemma, and the verdict from DIAG_SAMPLE's judgement. -/
theorem lightEventsComplete : Obligations.LightEventsComplete := by
  unfold Obligations.LightEventsComplete
  refine ⟨fun s m hf hm h0 h1 => ?_, fun tj start _ hh => ⟨fun below => ?_, fun above => ?_, dieFactor_between⟩,
    fun s m h => ?_, fun s o hm hf => ?_, fun s n hr hs hg hn lt => ⟨fun hd hc => ?_, fun h hw => ?_⟩,
    fun s h => exec_diagStepBegin_idle h, fun s n x hs lt ht => ?_, fun s v h => exec_diagSample_idle h,
    fun s l => ⟨fun h => if_neg (by simpa using h), fun h => if_pos (by simpa using h)⟩⟩
  · obtain ⟨t, run, light, power, event, lay, mem⟩ := thermalMeasure_disabledNtcs (m := m) hf hm h0 h1
    refine ⟨t, run, ?_⟩
    dsimp only
    rw [power]
    refine ⟨?_, ?_, ?_, ?_, ?_, ?_, ?_, rfl, event, lay, mem⟩ <;> rw [light] <;> rfl
  · exact congrArg Nat.cast (if_pos below)
  · exact congrArg Nat.cast ((if_neg (by omega)).trans (if_pos above))
  · have idle : (s.power.mode == .off || s.power.factory) = true := by simpa using h
    exact ⟨if_pos idle, fun o => if_pos idle⟩
  · have reports := irefReported_onlyReports (s := s) (o := o)
    refine ⟨_, exec_irefCheck hm hf, ?_⟩
    dsimp only
    rw [reports.light]
    refine ⟨?_, ?_, ?_, ?_, reports.lay, reports.mem⟩
    · rintro rfl
      exact ⟨rfl, rfl, rfl, irefReported_flag rfl⟩
    · rintro r rfl above
      have high : irefIsHigh (some r) = true := decide_eq_true above
      exact ⟨high, if_pos above, irefReported_flag (by rw [high, Bool.or_true])⟩
    · rintro r rfl - under
      have low : irefIsLow (some r) = true := decide_eq_true under
      have not_above : ¬r > 130000 := by omega
      exact ⟨low, decide_eq_false not_above, (if_neg not_above).trans (if_pos under), irefReported_flag (by rw [low, Bool.true_or])⟩
    · rintro r rfl above below
      have low : irefIsLow (some r) = false := decide_eq_false (Nat.not_lt.2 above)
      have high : irefIsHigh (some r) = false := decide_eq_false (Nat.not_lt.2 below)
      exact ⟨low, high, irefReported_within low high, fullScale_between above below⟩
  · refine (exec_diagStepBegin hr hs hg hn).trans (congrArg _ (if_neg ?_))
    omega
  · exact ⟨_, (exec_diagStepBegin hr hs hg hn).trans (congrArg _ (if_pos h)), diagEnd_stepBegun lt hw⟩
  · refine ⟨_, exec_diagSample hs ht, ?_⟩
    have reports := sampleReported_onlyReports (s := s) (n := n) (x := x)
    have after : vget (sampleReported s n x).light.diag n ⟨0, 0, false, .good⟩ = diagAfter s n x := sampleReported_diag lt
    dsimp only
    rw [after]
    exact ⟨congrArg Light.sampled reports.light, rfl, rfl, reports.lay, reports.mem, sampleReported_opened lt,
      sampleReported_shorted lt, diagAfter_first, sampleReported_good⟩

end Sys2Proof.Machine
end

section
/-! SUPPORT. What a full write leaves in a register whose fields all take what is written (R9, R10), which writes reach their
register (R879), and what settling FAULT# leaves alone (R470, R473). -/

namespace Sys2Proof.Machine
open Claim

variable {s : State} {src : Source} {v w : Word} {fs : List Field} {q r hi lo n : Nat}

/-! ### Fields -/

/-- Some field of fs holds bit i. -/
def covers (fs : List Field) (i : Nat) : Bool := fs.any (fun f => decide (f.lo ≤ i) && decide (i ≤ f.hi))

/-- The fields lie in a register and take what is written (R9). -/
def plainFields (fs : List Field) : Bool :=
  fs.all (fun f => (f.access == .rw || f.access == .rws) && decide (f.lo ≤ f.hi) && decide (f.hi < 32))

/-- The register w with the fields fs taken from v. -/
def takeFields (fs : List Field) (v w : Word) : Word := fs.foldl (fun w f => putFld w f.hi f.lo (fld v f.hi f.lo)) w

theorem plainFields_cons {f : Field} : plainFields (f :: fs) = true
    ↔ ((f.access = .rw ∨ f.access = .rws) ∧ f.lo ≤ f.hi ∧ f.hi < 32) ∧ plainFields fs = true := by
  simp [plainFields, and_assoc]

theorem takeFields_testBit (hp : plainFields fs = true) {i : Nat} : (takeFields fs v w).toNat.testBit i
    = if covers fs i then v.toNat.testBit i else w.toNat.testBit i := by
  induction fs generalizing w with
  | nil => rfl
  | cons f fs ih =>
    obtain ⟨⟨-, hl, hh⟩, hp⟩ := plainFields_cons.1 hp
    refine (ih hp).trans ?_
    rw [putFld_testBit hh hl, fld_testBit]
    by_cases inside : f.lo ≤ i ∧ i ≤ f.hi
    · have place : f.lo + (i - f.lo) = i := by omega
      have short : i - f.lo < f.hi + 1 - f.lo := by omega
      simp [covers, inside, place, short]
    · simp [covers, inside]

theorem bit_takeFields (hp : plainFields fs = true) (hc : covers fs n = true) : bit (takeFields fs v w) n = bit v n := by
  rw [bit_testBit, bit_testBit, takeFields_testBit hp, if_pos hc]

theorem fld_takeFields (hp : plainFields fs = true) (hc : ∀ i ≤ hi, lo ≤ i → covers fs i = true) :
    fld (takeFields fs v w) hi lo = fld v hi lo := by
  apply Nat.eq_of_testBit_eq
  intro i
  rw [fld_testBit, fld_testBit, takeFields_testBit hp]
  by_cases inside : i < hi + 1 - lo
  · rw [if_pos (hc _ (by omega) (by omega))]
  · rw [decide_eq_false inside, Bool.false_and, Bool.false_and]

theorem touched_all (hl : lo ≤ hi) (hh : hi < 32) : touched 0xF hi lo = true := by
  have bytes : touched 0xF hi lo = ((List.range 4).any fun k => decide (lo ≤ 8 * k + 7) && decide (8 * k ≤ hi)) := rfl
  rw [bytes, List.any_eq_true]
  refine ⟨lo / 8, List.mem_range.2 (by omega), ?_⟩
  rw [decide_eq_true (by omega), decide_eq_true (by omega)]
  rfl

theorem writeField_takes {locked : Bool} {f : Field} (ha : f.access = .rw ∨ f.access = .rws) (hl : f.lo ≤ f.hi)
    (hh : f.hi < 32) (legal : fieldLegal f.legal (fld v f.hi f.lo) = true) :
    writeField locked 0xF v v w f = putFld w f.hi f.lo (fld v f.hi f.lo) := by
  unfold writeField
  rw [touched_all hl hh]
  rcases ha with ha | ha <;> simp [ha, legal]

/-- A full write whose values are no reserved encodings is taken whole (R9, R10). -/
theorem newWord_takeFields {row : RegRow} (hr : regRow r = some row) (hp : plainFields row.fields = true)
    (legal : ∀ f ∈ row.fields, fieldLegal f.legal (fld v f.hi f.lo) = true) :
    newWord s r v 0xF w = takeFields row.fields v w := by
  unfold newWord takeFields
  rw [hr, mergeBytes_all]
  refine List.foldl_ext _ _ w fun w f hf => ?_
  obtain ⟨⟨ha, hl⟩, hh⟩ : ((f.access = .rw ∨ f.access = .rws) ∧ f.lo ≤ f.hi) ∧ f.hi < 32 := by
    simpa using List.all_eq_true.1 hp f hf
  exact writeField_takes ha hl hh (legal f hf)

theorem hasBit_all (hn : n < 32) : hasBit v 0xF n = bit v n := by
  have enabled : ∀ k < 4, nbit 0xF k = true := by decide
  rw [hasBit, enabled _ (by omega), Bool.true_and]

/-! ### Writes that reach their register -/

theorem getB_of_getF_zero (h : getF s r hi lo = 0) (hl : lo ≤ n) (hh : n ≤ hi) : getB s r n = false := by
  have zero : (fld (getReg s r) hi lo).testBit (n - lo) = false := by
    rw [show fld (getReg s r) hi lo = 0 from h]
    exact Nat.zero_testBit _
  rw [fld_testBit, decide_eq_true (by omega), Bool.true_and, Nat.add_sub_cancel' hl] at zero
  exact bit_testBit.trans zero

theorem denied_of_no_deny (h : getF s Reg.sysOwner 3 0 = 0) : denied s src r = false := by
  have no_deny {k : Nat} (hk : k ≤ 3) : getB s Reg.sysOwner k = false := getB_of_getF_zero h (Nat.zero_le _) hk
  unfold denied
  cases src with
  | rom => rfl
  | _ => simp [denyBit, no_deny]

/-- Mode requests apart, what reaches one register reaches all (Tables 4.8, 13.7, 14.4). -/
theorem reaches_congr (hr : r ≠ Reg.sysModeReq) (hq : q ≠ Reg.sysModeReq) : reaches s src r = reaches s src q := by
  simp only [reaches, beq_eq_false_iff_ne.2 hr, beq_eq_false_iff_ne.2 hq]

theorem satInc_eq_upTo {top : Nat} (h : n ≤ top) : satInc n top = upTo top n := by
  unfold satInc upTo
  split <;> omega

/-! ### What FAULT# leaves alone -/

@[simp] theorem pinSettle_whip : (pinSettle s).whip = s.whip := by
  obtain ⟨_, _, _, h, -⟩ := pinSettle_shape (s := s)
  rw [h]

@[simp] theorem pinSettle_tally : (pinSettle s).tally = s.tally := by
  obtain ⟨_, _, _, h, -⟩ := pinSettle_shape (s := s)
  rw [h]

/-- The latch of FAULT# follows the active sources; its level is not yet judged (R473). -/
def pinLatched (s : State) : State :=
  if pinModes s.power.mode && pinSourced s && getB s Reg.sysFaultPin 14 then setB s Reg.sysFaultPin 13 true else s

theorem pinSettle_regs : (pinSettle s).regs = (pinLatched s).regs := by
  unfold pinSettle
  dsimp only
  rw [← pinLatched]
  generalize pinLatched s = t
  split <;> split <;> rfl

theorem getReg_pinSettle_eq : getReg (pinSettle s) r = getReg (pinLatched s) r := by
  rw [getReg, pinSettle_regs, getReg]

/-- Settling FAULT# changes its latch and its level alone (R470, R473). -/
theorem pinSettle_butPin : ButPin s (pinSettle s) := by
  obtain ⟨_, _, _, h, -⟩ := pinSettle_shape (s := s)
  refine ⟨?_, fun r hr => getReg_pinSettle hr, fun n _ hn => ?_⟩
  · generalize pinSettle s = t at h
    rw [h]
  · rw [getB, getReg_pinSettle_eq, pinLatched]
    split
    · exact getB_setB_other (by decide) (.inr hn)
    · rfl

/-! ### Entries of an array -/

theorem vget_fin {α : Type} {k : Nat} {x : Vector α k} {i : Fin k} {d : α} : vget x i.val d = x[i] := by
  simp [vget]

theorem getElem_vset_other {α : Type} {k : Nat} {x : Vector α k} {i j : Fin k} {a : α} (h : j ≠ i) :
    (vset x i.val a)[j] = x[j] := by
  rw [← vget_fin (d := a), ← vget_fin (d := a), vget_vset_other (Fin.val_ne_of_ne h)]

theorem vget_map {α β : Type} {k i : Nat} {x : Vector α k} {f : α → β} {a : α} {b : β} (h : i < k) :
    vget (x.map f) i b = f (vget x i a) := by
  simp [vget, h]

end Sys2Proof.Machine
end

section
/-! SUPPORT. What a write of MON_n_SRC leaves in the register and in the monitor, what a counted sample does to each
statistic, and the statement on the monitors (O57; R860 to R867, R896). -/

namespace Sys2Proof.Machine
open Claim

variable {s : State} {src : Source} {v : Word} {m : Monitor} {x : Sample} {n : Fin 8} {i k : Nat}

/-! ### MON_n_SRC (R864, R866, R867, R896) -/

/-- The fields of MON_n_SRC (Table 18.7). -/
def monFields : List Field :=
  [rwsF 31 31 .any, rwsF 29 26 (.range 0 9), rwsF 25 21 (.range 0 23), rwsF 20 8 .any, rwsF 7 0 .any]

theorem monFields_plain : plainFields monFields = true := by decide

theorem regRow_mon : regRow (Reg.mon n 0) = some ⟨Reg.mon 0 0, 8, 4, 0, monFields⟩ := by
  revert n
  decide

theorem regExists_mon : regExists (Reg.mon n 0) = true := by
  revert n
  decide

theorem mon_ne_faultPin : Reg.mon n 0 ≠ Reg.sysFaultPin := by
  simp only [Reg.mon, Reg.sysFaultPin, rid]
  omega

theorem newWord_mon {base : Word} (hq : fld v 29 26 ≤ 9) (hs : fld v 25 21 ≤ 23) :
    newWord s (Reg.mon n 0) v 0xF base = takeFields monFields v base := by
  refine newWord_takeFields regRow_mon monFields_plain fun f hf => ?_
  simp only [monFields, List.mem_cons, List.not_mem_nil, or_false] at hf
  rcases hf with rfl | rfl | rfl | rfl | rfl <;> simp [fieldLegal, rwsF, hq, hs]

/-- Monitor n empty, with no sample waiting for it (R866). -/
def monCleared (s : State) (n : Nat) : State :=
  { s with tally := { s.tally with
      mons := vset s.tally.mons n Monitor.init, due := s.tally.due.filter (fun x => x.unit != n) } }

/-- MON_n_SRC takes legal fields. -/
def monTaken (s : State) (n : Nat) (v : Word) : State :=
  setReg s (Reg.mon n 0) (takeFields monFields v (getReg s (Reg.mon n 0)))

/-- MON_n_SRC takes legal fields, and CLEAR empties the monitor (R866). -/
theorem writeMon_legal (hq : fld v 29 26 ≤ 9) (hs : fld v 25 21 ≤ 23) (ha : argLegal (fld v 29 26) (fld v 7 0) = true) :
    writeMon s (Reg.mon n 0) v 0xF = if bit v 30 then monCleared (monTaken s n v) n else monTaken s n v := by
  have unit : (Reg.mon n 0 - Reg.mon 0 0) / 4 = n ∧ (Reg.mon n 0 - Reg.mon 0 0) % 4 = 0 := by
    simp only [Reg.mon, rid]
    omega
  have qty : fld (takeFields monFields v (getReg s (Reg.mon n 0))) 29 26 = fld v 29 26 :=
    fld_takeFields monFields_plain (by decide)
  have arg : fld (takeFields monFields v (getReg s (Reg.mon n 0))) 7 0 = fld v 7 0 :=
    fld_takeFields monFields_plain (by decide)
  have clear : hasBit v 0xF 30 = bit v 30 := hasBit_all (by decide)
  unfold writeMon
  dsimp only
  rw [unit.1, unit.2, if_neg (not_not_intro rfl), newWord_mon hq hs, qty, arg, if_pos ha, clear]
  rfl

theorem monTaken_effect : getB (monTaken s n v) (Reg.mon n 0) 31 = bit v 31
    ∧ getF (monTaken s n v) (Reg.mon n 0) 29 0 = fld v 29 0
    ∧ (monTaken s n v).lay = s.lay ∧ (monTaken s n v).mem = s.mem ∧ (monTaken s n v).tally = s.tally := by
  rw [getB, getF, monTaken, getReg_setReg, setReg_lay, setReg_mem, setReg_tally]
  exact ⟨bit_takeFields monFields_plain (by decide), fld_takeFields monFields_plain (by decide), rfl, rfl, rfl⟩

/-- CLEAR leaves the registers as the write sets them, and the monitors but one (R866). -/
theorem monCleared_effect : (monCleared s n).regs = s.regs ∧ (monCleared s n).lay = s.lay ∧ (monCleared s n).mem = s.mem
    ∧ (monCleared s n).tally.mons[n] = Monitor.init ∧ (∀ k, k ≠ n → (monCleared s n).tally.mons[k] = s.tally.mons[k])
    ∧ (monCleared s n).tally.due = s.tally.due.filter (fun x => x.unit != n.val) := by
  refine ⟨rfl, rfl, rfl, ?_, fun k hk => getElem_vset_other hk, rfl⟩
  rw [← vget_fin (d := Monitor.init)]
  exact vget_vset_same n.isLt

theorem exec_monSrcWrite (h : Open s src (Reg.mon n 0)) :
    exec (.monSrcWrite src n v) s = .next (pinSettle (writeMon s (Reg.mon n 0) v 0xF)) := by
  have page : Reg.mon n 0 / 64 = 0x14 := by
    simp only [Reg.mon, rid]
    omega
  have at_page : writeAt s src (Reg.mon n 0) v 0xF = (writeMon s (Reg.mon n 0) v 0xF, false) := by
    unfold writeAt
    rw [page]
    rfl
  exact congrArg Host.Outcome.next ((writeReg_of_open h regExists_mon).trans (by rw [at_page]))

/-! ### A counted sample (R860, R861) -/

theorem binOf_eq {b : Int} {shift : Nat} {base : Int} :
    binOf b shift base = (min (max (b / 2 ^ shift - base) 0) 15).toNat := by
  unfold binOf
  dsimp only
  split_ifs <;> omega

theorem binOf_lt {b : Int} {shift : Nat} {base : Int} : binOf b shift base < 16 := by
  rw [binOf_eq]
  omega

theorem monTake_min : (monTake m x).min.toInt = min m.min.toInt x.v.toInt := by
  simp only [monTake]
  split <;> omega

theorem monTake_max : (monTake m x).max.toInt = max m.max.toInt x.v.toInt := by
  simp only [monTake]
  split <;> omega

theorem monTake_count : (monTake m x).count.toNat = upTo (2 ^ 32 - 1) m.count.toNat := by
  have lt := m.count.isLt
  simp only [monTake]
  rw [satInc_eq_upTo (by omega), BitVec.toNat_ofNat, upTo]
  omega

/-- The bins with one more sample in bin i. -/
theorem vget_binCounted {bins : Vector (BitVec 16) 16} (hi : i < 16) (room : (vget bins i 0).toNat < 65535) :
    (vget (vset bins i (BitVec.ofNat 16 ((vget bins i 0).toNat + 1))) k 0).toNat
      = (vget bins k 0).toNat + if k = i then 1 else 0 := by
  by_cases h : k = i
  · subst h
    rw [vget_vset_same hi, BitVec.toNat_ofNat, if_pos rfl]
    omega
  · rw [vget_vset_other h, if_neg h, Nat.add_zero]

theorem monTake_room (room : (vget m.bins (binOf x.v.toInt x.shift x.base) 0).toNat < 65535) :
    (monTake m x).halves = m.halves ∧ ∀ k, (vget (monTake m x).bins k 0).toNat
      = (vget m.bins k 0).toNat + if k = binOf x.v.toInt x.shift x.base then 1 else 0 := by
  have not_full : ((vget m.bins (binOf x.v.toInt x.shift x.base) 0).toNat == 65535) = false :=
    beq_eq_false_iff_ne.2 room.ne
  simp only [monTake, not_full]
  exact ⟨rfl, fun k => vget_binCounted binOf_lt room⟩

/-- Every bin halved, rounded down (R861). -/
theorem vget_binsHalved {bins : Vector (BitVec 16) 16} (hk : k < 16) :
    (vget (bins.map fun b => BitVec.ofNat 16 (b.toNat / 2)) k 0).toNat = (vget bins k 0).toNat / 2 := by
  have lt := (vget bins k 0).isLt
  rw [vget_map (a := 0) hk, BitVec.toNat_ofNat]
  omega

theorem monTake_full (full : (vget m.bins (binOf x.v.toInt x.shift x.base) 0).toNat = 65535) :
    (monTake m x).halves.toNat = upTo 255 m.halves.toNat ∧ ∀ k, k < 16 → (vget (monTake m x).bins k 0).toNat
      = (vget m.bins k 0).toNat / 2 + if k = binOf x.v.toInt x.shift x.base then 1 else 0 := by
  have lt := m.halves.isLt
  simp only [monTake, full, beq_self_eq_true, if_true]
  refine ⟨?_, fun k hk => ?_⟩
  · rw [satInc_eq_upTo (by omega), BitVec.toNat_ofNat, upTo]
    omega
  · rw [vget_binCounted binOf_lt, vget_binsHalved hk]
    rw [vget_binsHalved binOf_lt, full]
    decide

/-- One waiting sample is counted in its monitor and leaves the queue (R862). -/
theorem exec_monSample_one (hd : s.tally.due = [x]) (hn : x.unit = n) : exec .monSample s
    = .next { s with tally := { mons := vset s.tally.mons n (monTake s.tally.mons[n] x), due := [] } } := by
  have clock : tallyClock s.tally = { mons := vset s.tally.mons n (monTake s.tally.mons[n] x), due := [] } := by
    simp only [tallyClock, hd, splitFirst, List.contains_nil, Bool.false_eq_true, if_false, List.foldl_cons,
      List.foldl_nil, tallyTake, hn, vget_fin]
  exact congrArg (fun t : Tally => Host.Outcome.next { s with tally := t }) clock

theorem exec_monSample_none (hd : s.tally.due = []) : exec .monSample s = .next s := by
  have clock : tallyClock s.tally = { s.tally with due := [] } := by
    simp only [tallyClock, hd, splitFirst, List.foldl_nil]
  rw [← hd] at clock
  exact congrArg (fun t : Tally => Host.Outcome.next { s with tally := t }) clock

/-! ### The statement -/

/-- Settles O57. The write takes every field of MON_n_SRC, so bits of the register are bits of the word written; the
counted sample is monTake, read off statistic by statistic. -/
theorem tallyMonitorsComplete : Obligations.TallyMonitorsComplete := by
  unfold Obligations.TallyMonitorsComplete
  refine ⟨fun s src n v ho hq hs ha => ⟨_, exec_monSrcWrite ho, ?_⟩,
    fun s x n hd hn => ⟨_, exec_monSample_one hd hn, ?_⟩, fun s hd => exec_monSample_none hd⟩
  · dsimp only
    rw [getB_pinSettle mon_ne_faultPin, getF_pinSettle mon_ne_faultPin, pinSettle_tally, pinSettle_lay, pinSettle_mem,
      writeMon_legal hq hs ha]
    obtain ⟨armed, fields, lay, mem, tally⟩ := monTaken_effect (s := s) (n := n) (v := v)
    rw [← armed, ← fields, ← lay, ← mem, ← tally]
    generalize monTaken s n v = t
    cases bit v 30 with
    | false => exact ⟨rfl, rfl, fun _ => rfl, nofun, rfl, rfl⟩
    | true =>
      obtain ⟨regs, lay, mem, emptied, others, due⟩ := monCleared_effect (s := t) (n := n)
      rw [if_pos rfl, getB, getF, getReg, regs]
      exact ⟨rfl, rfl, nofun, fun _ => ⟨emptied, others, due⟩, lay, mem⟩
  · dsimp only
    rw [← binOf_eq, ← vget_fin (d := Monitor.init) (x := vset _ _ _), vget_vset_same n.isLt]
    refine ⟨rfl, rfl, fun k hk => getElem_vset_other hk, monTake_min, monTake_max, monTake_count, fun room => ?_, monTake_full⟩
    obtain ⟨halves, bins⟩ := monTake_room room
    exact ⟨halves, fun k _ => bins k⟩

end Sys2Proof.Machine
end

section
/-! SUPPORT. The step of the CRC: what reflection, one bit and one byte do to the register (R844). -/

namespace Sys2Proof.Machine

variable {w v poly crc i : Nat} {b : Bool}

/-! ### Reflection -/

theorem foldl_reflect_succ (is : List Nat) (h : ∀ i ∈ is, i < w) : ∀ acc,
    is.foldl (fun acc i => acc + (v / 2 ^ i % 2) * 2 ^ (w + 1 - 1 - i)) (2 * acc)
      = 2 * is.foldl (fun acc i => acc + (v / 2 ^ i % 2) * 2 ^ (w - 1 - i)) acc := by
  induction is with
  | nil => exact fun _ => rfl
  | cons i is ih =>
    intro acc
    have lt : i < w := h i List.mem_cons_self
    have power : 2 ^ (w + 1 - 1 - i) = 2 * 2 ^ (w - 1 - i) := by
      rw [← Nat.pow_succ', show w + 1 - 1 - i = (w - 1 - i).succ by omega]
    rw [List.foldl_cons, List.foldl_cons, ← ih fun j hj => h j (List.mem_cons_of_mem _ hj), power]
    congr 1
    ring

/-- A wider reflection takes the next bit in at the bottom. -/
theorem reflect_succ : reflect (w + 1) v = 2 * reflect w v + v / 2 ^ w % 2 := by
  unfold reflect
  rw [List.range_succ, List.foldl_append, List.foldl_cons, List.foldl_nil,
    ← foldl_reflect_succ (List.range w) (fun _ => List.mem_range.1) 0]
  simp

theorem reflect_lt : reflect w v < 2 ^ w := by
  induction w with
  | zero => exact Nat.one_pos
  | succ w ih =>
    rw [reflect_succ, Nat.pow_succ]
    omega

theorem nbit_reflect (h : i < w) : nbit (reflect w v) i = nbit v (w - 1 - i) := by
  induction w generalizing i with
  | zero => exact absurd h (Nat.not_lt_zero i)
  | succ w ih =>
    rw [reflect_succ]
    cases i with
    | zero => simp [nbit]
    | succ i =>
      have shift : (2 * reflect w v + v / 2 ^ w % 2) / 2 = reflect w v := by omega
      rw [nbit_eq_testBit, Nat.testBit_succ, shift, ← nbit_eq_testBit, ih (by omega)]
      congr 1
      omega

/-! ### Bits and bytes -/

theorem nbit_shifted (h : i < w) : nbit (crc * 2 % 2 ^ w) i = if i = 0 then false else nbit crc (i - 1) := by
  rw [nbit_mod_two_pow h, nbit_eq_testBit]
  cases i with
  | zero => simp
  | succ i => rw [Nat.testBit_succ, Nat.mul_div_cancel _ Nat.two_pos, if_neg (Nat.succ_ne_zero i), nbit_eq_testBit,
      Nat.succ_sub_one]

theorem nbit_crcStep (h : i < w) : nbit (crcStep w poly crc b) i
    = ((if i = 0 then false else nbit crc (i - 1)) ^^ (nbit poly i && (nbit crc (w - 1) ^^ b))) := by
  have added : nbit (Nat.xor (crc * 2 % 2 ^ w) (poly % 2 ^ w)) i = (nbit (crc * 2 % 2 ^ w) i ^^ nbit poly i) := by
    rw [nbit_eq_testBit, nbit_eq_testBit, ← nbit_mod_two_pow (v := poly) h, nbit_eq_testBit]
    exact Nat.testBit_xor _ _ _
  rw [← nbit_shifted h]
  unfold crcStep
  dsimp only
  split
  next out => rw [added, out, Bool.and_true]
  next out => rw [Bool.eq_false_of_not_eq_true out, Bool.and_false, Bool.xor_false]

/-- The bits of a byte in the order in which the register takes them. -/
theorem crcByte_eq_foldl {refin : Bool} {x : Byte} : crcByte w poly refin crc x
    = ((List.range 8).map fun i => if refin then x.getLsbD i else x.getLsbD (7 - i)).foldl (crcStep w poly) crc := by
  have order : (List.range 8).map (fun i => if refin then x.getLsbD i else x.getLsbD (7 - i))
      = [7, 6, 5, 4, 3, 2, 1, 0].map (nbit (if refin then reflect 8 x.toNat else x.toNat)) := by
    cases refin with
    | false => simp [nbit_toNat, List.range_succ]
    | true => simp [nbit_reflect, nbit_toNat, List.range_succ]
  rw [order, List.foldl_map]
  rfl

end Sys2Proof.Machine
end

section
/-! SUPPORT. What the writes of a Whipping unit's registers do, what a compare and a core clock of a unit do, and the statement
on the units (O56; R839 to R850, R854). -/

namespace Sys2Proof.Machine
open Claim

variable {s t : State} {src : Source} {v : Word} {u : Fin 4} {b : Byte} {rest bs : List Byte} {k q : Nat}

/-! ### A unit -/

theorem whipUnit_setWhip {w : Whip} : whipUnit (setWhip s u w) u = w := vget_vset_same u.isLt

theorem whipUnit_congr (h : t.whip = s.whip) : whipUnit t k = whipUnit s k := congrArg (vget · k Whip.init) h

theorem setWhip_others {w : Whip} {j : Fin 4} (h : j ≠ u) : (setWhip s u w).whip[j] = s.whip[j] := getElem_vset_other h

theorem OnlyReports.whip (h : OnlyReports s t) : t.whip = s.whip := by
  obtain ⟨_, _, _, rfl⟩ := h
  rfl

/-! ### Its registers -/

theorem whp_ne_shared : Reg.whp q k ≠ Reg.sysFaultPin ∧ Reg.whp q k ≠ Reg.cltLogHead ∧ Reg.whp q k ≠ Reg.sysEvents
    ∧ Reg.whp q k ≠ Reg.layEvtPend := by
  simp only [Reg.whp, Reg.sysFaultPin, Reg.cltLogHead, Reg.sysEvents, Reg.layEvtPend, rid]
  omega

theorem whp_ne_modeReq : Reg.whp q k ≠ Reg.sysModeReq := by
  simp only [Reg.whp, Reg.sysModeReq, rid]
  omega

theorem whp_ne_whp {j : Nat} (h : j ≠ k) : Reg.whp q j ≠ Reg.whp q k := by
  unfold Reg.whp
  omega

theorem whp_index (hk : k < 10) : (Reg.whp q k - Reg.whp 0 0) / 10 = q ∧ (Reg.whp q k - Reg.whp 0 0) % 10 = k := by
  unfold Reg.whp
  omega

theorem regExists_whp (hk : k < 10) : regExists (Reg.whp u k) = true := by
  have all : ∀ (u : Fin 4) (k : Fin 10), regExists (Reg.whp u k) = true := by decide
  exact all u ⟨k, hk⟩

theorem regWrite_whp (h : Open s src (Reg.whp u k)) (hk : k < 10) :
    regWrite s src (Reg.whp u k) v = pinSettle (writeWhip s (Reg.whp u k) v 0xF) := by
  have page : Reg.whp u k / 64 = 0x13 := by
    simp only [Reg.whp, rid]
    omega
  have at_page : writeAt s src (Reg.whp u k) v 0xF = (writeWhip s (Reg.whp u k) v 0xF, false) := by
    unfold writeAt
    rw [page]
    rfl
  exact (writeReg_of_open h (regExists_whp hk)).trans (by rw [at_page])

/-- An owned unit ignores writes (R854). -/
theorem writeWhip_owned (ho : whipOwner s u ≠ 0) (hk : k < 10) : writeWhip s (Reg.whp u k) v 0xF = s := by
  unfold writeWhip
  rw [(whp_index hk).1]
  exact if_pos ho

theorem exec_whip_owned (h : Open s src (Reg.whp u 0)) (ho : whipOwner s u ≠ 0) {c : Instr}
    (hc : c ∈ [Instr.whipStart src u v, .whipCheck src u v]) : exec c s = .next (pinSettle s) := by
  have ignored (v : Word) : regWrite s src (Reg.whp u 0) v = pinSettle s := by
    rw [regWrite_whp h (by decide), writeWhip_owned ho (by decide)]
  simp only [List.mem_cons, List.not_mem_nil, or_false] at hc
  rcases hc with rfl | rfl <;> exact congrArg Host.Outcome.next (ignored _)

/-! ### WHPu_CFG (Table 18.1) -/

@[simp] theorem plainWrite_whip {r be : Nat} : (plainWrite s r v be).whip = s.whip := rfl

@[simp] theorem plainWrite_lay {r be : Nat} : (plainWrite s r v be).lay = s.lay := rfl

/-- WHPu_CFG is written; START and CHECK wait. -/
def cfgWritten (s : State) (u : Nat) (v : Word) : State := plainWrite s (Reg.whp u 0) v 0xF

theorem cfgWritten_effect : (cfgWritten s k v).whip = s.whip ∧ (cfgWritten s k v).lay = s.lay
    ∧ (cfgWritten s k v).mem = s.mem ∧ ∀ j, j ≠ 0 → getReg (cfgWritten s k v) (Reg.whp k j) = getReg s (Reg.whp k j) :=
  ⟨plainWrite_whip, plainWrite_lay, plainWrite_mem, fun _ hj => getReg_plainWrite_other (whp_ne_whp hj)⟩

/-- The fields of WHPu_CFG. -/
def cfgFields : List Field := [rwR 21 16 1 32, rwF 9 9, rwF 8 8, rwF 4 4]

theorem cfgFields_plain : plainFields cfgFields = true := by decide

theorem regRow_cfg : regRow (Reg.whp u 0) = some ⟨Reg.whp 0 0, 4, 10, 0x00200310, cfgFields⟩ := by
  revert u
  decide

theorem cfgWritten_settings (lo : 1 ≤ fld v 21 16) (hi : fld v 21 16 ≤ 32) :
    getF (cfgWritten s u v) (Reg.whp u 0) 21 16 = fld v 21 16 ∧ getB (cfgWritten s u v) (Reg.whp u 0) 8 = bit v 8
    ∧ getB (cfgWritten s u v) (Reg.whp u 0) 9 = bit v 9 := by
  have taken : newWord s (Reg.whp u 0) v 0xF (getReg s (Reg.whp u 0)) = takeFields cfgFields v (getReg s (Reg.whp u 0)) := by
    refine newWord_takeFields regRow_cfg cfgFields_plain fun f hf => ?_
    simp only [cfgFields, List.mem_cons, List.not_mem_nil, or_false] at hf
    rcases hf with rfl | rfl | rfl | rfl <;> simp [fieldLegal, rwR, rwF, lo, hi]
  rw [getF, getB, getB, cfgWritten, plainWrite, getReg_setReg, taken]
  exact ⟨fld_takeFields cfgFields_plain (by decide), bit_takeFields cfgFields_plain (by decide),
    bit_takeFields cfgFields_plain (by decide)⟩

theorem writeWhip_cfg (ho : whipOwner s u = 0) : writeWhip s (Reg.whp u 0) v 0xF
    = let t := if bit v 0 then whipStart (cfgWritten s u v) u else cfgWritten s u v
      if bit v 1 then whipCheck t u else t := by
  obtain ⟨unit, place⟩ := whp_index (q := u) (k := 0) (by decide)
  have start : hasBit v 0xF 0 = bit v 0 := hasBit_all (by decide)
  have check : hasBit v 0xF 1 = bit v 1 := hasBit_all (by decide)
  unfold writeWhip
  dsimp only
  rw [unit, if_neg (not_not_intro ho), place, start, check]
  rfl

theorem exec_whipStart (h : Open s src (Reg.whp u 0)) (ho : whipOwner s u = 0) (hc : bit v 1 = false) :
    exec (.whipStart src u v) s = .next (pinSettle (whipStart (cfgWritten s u (putBit v 0 true)) u)) := by
  refine congrArg Host.Outcome.next ((regWrite_whp h (by decide)).trans ?_)
  rw [writeWhip_cfg ho, bit_putBit (by decide), bit_putBit_other (by decide) (by decide), hc]
  rfl

theorem exec_whipCheck (h : Open s src (Reg.whp u 0)) (ho : whipOwner s u = 0) (hc : bit v 0 = false) :
    exec (.whipCheck src u v) s = .next (pinSettle (whipCheck (cfgWritten s u (putBit v 1 true)) u)) := by
  refine congrArg Host.Outcome.next ((regWrite_whp h (by decide)).trans ?_)
  rw [writeWhip_cfg ho, bit_putBit (by decide), bit_putBit_other (by decide) (by decide), hc]
  rfl

/-! ### START (R840, R843) -/

/-- The settings that a START takes. -/
def settings (s : State) (u : Nat) : WhipSet :=
  ⟨getF s (Reg.whp u 0) 21 16, getReg s (Reg.whp u 1), getReg s (Reg.whp u 2), getReg s (Reg.whp u 3),
    getB s (Reg.whp u 0) 8, getB s (Reg.whp u 0) 9⟩

theorem settings_cfgWritten (lo : 1 ≤ fld v 21 16) (hi : fld v 21 16 ≤ 32) : settings (cfgWritten s u (putBit v 0 true)) u
    = ⟨fld v 21 16, getReg s (Reg.whp u 1), getReg s (Reg.whp u 2), getReg s (Reg.whp u 3), bit v 8, bit v 9⟩ := by
  have same : fld (putBit v 0 true) 21 16 = fld v 21 16 := fld_putBit_other (by decide) (by decide)
  obtain ⟨-, -, -, regs⟩ := cfgWritten_effect (s := s) (k := u) (v := putBit v 0 true)
  obtain ⟨width, refin, refout⟩ := cfgWritten_settings (s := s) (u := u) (v := putBit v 0 true) (by omega) (by omega)
  rw [settings, width, refin, refout, regs 1 (by decide), regs 2 (by decide), regs 3 (by decide), same,
    bit_putBit_other (by decide) (by decide), bit_putBit_other (by decide) (by decide)]

theorem whipStart_effect : (whipUnit (whipStart s u) u).set = settings s u
    ∧ (whipUnit (whipStart s u) u).crc = BitVec.ofNat 32 ((settings s u).init.toNat % 2 ^ (settings s u).width)
    ∧ (whipUnit (whipStart s u) u).queue = [] ∧ (whipUnit (whipStart s u) u).poison = false
    ∧ (whipUnit (whipStart s u) u).check = none ∧ (∀ j, j ≠ u → (whipStart s u).whip[j] = s.whip[j])
    ∧ (whipStart s u).lay = s.lay ∧ (whipStart s u).mem = s.mem := by
  unfold whipStart
  dsimp only
  rw [whipUnit_setWhip]
  exact ⟨rfl, rfl, rfl, rfl, rfl, fun j hj => setWhip_others hj, rfl, rfl⟩

/-! ### The compare (R849, R850) -/

/-- RESULT equals EXPECT in the width, and no byte was dropped. -/
def whipMatches (s : State) (u : Nat) : Bool :=
  !(whipUnit s u).poison && decide ((whipUnit s u).result.toNat % 2 ^ (whipUnit s u).set.width
    = (getReg s (Reg.whp u 8)).toNat % 2 ^ (whipUnit s u).set.width)

/-- Unit u has compared; a mismatch is not yet flagged. -/
def whipJudged (s : State) (u : Nat) : State :=
  setB (setWhip s u { whipUnit s u with check := none, matched := whipMatches s u }) (Reg.whp u 9) 0 true

/-- A mismatch of unit u is flagged and counted. -/
def mismatchFlagged (s : State) (u : Nat) : State := setB (countUp s (Reg.whp u 9) 23 16) (Reg.whp u 9) 2 true

/-- A mismatch of unit u is reported: SYS_EVENTS, the log, the Slack program and FAULT#. -/
def mismatchReported (s : State) (u : Nat) : State :=
  let s := sysEvent s 9
  pinSettle (if getB s (Reg.whp u 0) 4 then
    postEvent (logHw s .whipMismatch (BitVec.ofNat 32 u)) 19 (fun d => d ||| BitVec.ofNat 24 (2 ^ u)) else s)

theorem whipCompareNow_eq : whipCompareNow s k
    = if whipMatches s k then whipJudged s k else mismatchReported (mismatchFlagged (whipJudged s k) k) k := rfl

theorem postEvent_onlyReports {e : Nat} {f : Cell → Cell} : OnlyReports s (postEvent s e f) := ⟨_, _, _, rfl⟩

theorem mismatchReported_onlyReports : OnlyReports s (mismatchReported s k) := by
  unfold mismatchReported
  refine (sysEvent_onlyReports (k := 9)).trans (OnlyReports.trans ?_ pinSettle_onlyReports)
  split
  · exact logHw_onlyReports.trans postEvent_onlyReports
  · exact .refl

theorem getReg_mismatchReported {j : Nat} : getReg (mismatchReported s k) (Reg.whp q j) = getReg s (Reg.whp q j) := by
  obtain ⟨pin, head, events, pend⟩ := whp_ne_shared (q := q) (k := j)
  unfold mismatchReported
  dsimp only
  rw [getReg_pinSettle pin]
  split
  · rw [getReg_postEvent pend, logHw, getReg_logPush head, getReg_sysEvent events pend]
  · exact getReg_sysEvent events pend

theorem fld_count_lt {w : Word} : fld w 23 16 ≤ 255 := Nat.le_of_lt_succ fld_lt

theorem mismatchFlagged_status : getB (mismatchFlagged s k) (Reg.whp k 9) 0 = getB s (Reg.whp k 9) 0
    ∧ getB (mismatchFlagged s k) (Reg.whp k 9) 2 = true
    ∧ getF (mismatchFlagged s k) (Reg.whp k 9) 23 16 = upTo 255 (getF s (Reg.whp k 9) 23 16) := by
  unfold mismatchFlagged
  refine ⟨?_, getB_setB (by decide), ?_⟩
  · exact (getB_setB_other (by decide) (.inr (by decide))).trans (getB_setF_other (by decide) (by decide) (.inr (by decide)))
  · rw [getF_setB_other (by decide) (.inr (by decide)), getF_countUp (by decide) (by decide)]
    exact satInc_eq_upTo fld_count_lt

theorem whipJudged_status : getB (whipJudged s k) (Reg.whp k 9) 0 = true
    ∧ getF (whipJudged s k) (Reg.whp k 9) 23 16 = getF s (Reg.whp k 9) 23 16 :=
  ⟨getB_setB (by decide), getF_setB_other (by decide) (.inr (by decide))⟩

/-- A compare leaves the unit judged, and all but the unit and what reports go through as it was. -/
theorem whipCompareNow_effect : (whipCompareNow s k).whip = (whipJudged s k).whip ∧ (whipCompareNow s k).lay = s.lay
    ∧ (whipCompareNow s k).mem = s.mem := by
  have reports := mismatchReported_onlyReports (s := mismatchFlagged (whipJudged s k) k) (k := k)
  rw [whipCompareNow_eq]
  split
  · exact ⟨rfl, rfl, rfl⟩
  · exact ⟨reports.whip, reports.lay, reports.mem⟩

theorem whipCompareNow_status : getB (whipCompareNow s k) (Reg.whp k 9) 0 = true
    ∧ (whipMatches s k = false → getB (whipCompareNow s k) (Reg.whp k 9) 2 = true
      ∧ getF (whipCompareNow s k) (Reg.whp k 9) 23 16 = upTo 255 (getF s (Reg.whp k 9) 23 16))
    ∧ (whipMatches s k = true → getF (whipCompareNow s k) (Reg.whp k 9) 23 16 = getF s (Reg.whp k 9) 23 16) := by
  obtain ⟨done, kept⟩ := whipJudged_status (s := s) (k := k)
  obtain ⟨still, flagged, counted⟩ := mismatchFlagged_status (s := whipJudged s k) (k := k)
  rw [whipCompareNow_eq]
  cases whipMatches s k with
  | true => exact ⟨done, nofun, fun _ => kept⟩
  | false =>
    rw [if_neg Bool.false_ne_true, getB, getB, getF, getReg_mismatchReported]
    exact ⟨still.trans done, fun _ => ⟨flagged, counted.trans (congrArg (upTo 255) kept)⟩, nofun⟩

theorem whipCompareNow_compared (hq : (whipUnit s u).queue = []) : Compared s u (whipCompareNow s u) := by
  obtain ⟨whip, lay, mem⟩ := whipCompareNow_effect (s := s) (k := u)
  have unit : whipUnit (whipCompareNow s u) u = { whipUnit s u with check := none, matched := whipMatches s u } :=
    (whipUnit_congr whip).trans whipUnit_setWhip
  obtain ⟨done, mismatch, same⟩ := whipCompareNow_status (s := s) (k := u)
  unfold Compared
  rw [unit]
  exact ⟨rfl, rfl, hq, done, mismatch, same, lay, mem⟩

/-- What a compare judges by may be read off an earlier state that has the same settings, poison, EXPECT and STATUS. -/
theorem compared_of_earlier {s' : State} (h : Compared s' u t) (set : (whipUnit s' u).set = (whipUnit s u).set)
    (poison : (whipUnit s' u).poison = (whipUnit s u).poison)
    (regs : ∀ j, j ≠ 0 → getReg s' (Reg.whp u j) = getReg s (Reg.whp u j)) (lay : s'.lay = s.lay) (mem : s'.mem = s.mem) :
    Compared s u t := by
  have count : getF s' (Reg.whp u 9) 23 16 = getF s (Reg.whp u 9) 23 16 := congrArg (fld · 23 16) (regs 9 (by decide))
  unfold Compared at *
  dsimp only at h
  rw [set, poison, regs 8 (by decide), count, lay, mem] at h
  exact h

theorem compared_pinSettle (h : Compared s u t) : Compared s u (pinSettle t) := by
  have pin := (whp_ne_shared (q := u) (k := 9)).1
  unfold Compared at *
  rw [whipUnit_congr pinSettle_whip, getB_pinSettle pin, getB_pinSettle pin, getF_pinSettle pin, pinSettle_lay, pinSettle_mem]
  exact h

/-! ### CHECK (R849) -/

theorem whipCheck_empty (hq : (whipUnit s k).queue = []) : whipCheck s k = whipCompareNow s k := by
  simp [whipCheck, hq]

theorem whipCheck_queued (hq : (whipUnit s k).queue ≠ []) :
    whipCheck s k = setWhip s k { whipUnit s k with check := some (whipUnit s k).queue.length } := by
  simp [whipCheck, hq]

/-! ### Feeds (R841, R842, R846) -/

/-- FEED32 keeps its last byte. -/
def highKept (s : State) (u : Nat) (reg : FeedReg) (v : Word) : State :=
  match reg with
  | .feed32 => setWhip s u { whipUnit s u with high := byteOf v 3 }
  | _ => s

theorem highKept_effect {reg : FeedReg} :
    (whipUnit (highKept s u reg v) u).queue = (whipUnit s u).queue
    ∧ (whipUnit (highKept s u reg v) u).crc = (whipUnit s u).crc
    ∧ (whipUnit (highKept s u reg v) u).poison = (whipUnit s u).poison
    ∧ (highKept s u reg v).lay = s.lay ∧ (highKept s u reg v).mem = s.mem := by
  cases reg with
  | feed32 =>
    rw [highKept, whipUnit_setWhip]
    exact ⟨rfl, rfl, rfl, rfl, rfl⟩
  | _ => exact ⟨rfl, rfl, rfl, rfl, rfl⟩

/-- The places of the feed registers among those of a unit. -/
def feedPlace : FeedReg → Nat
  | .feed8 => 4
  | .feed16 => 5
  | .feed32 => 6

theorem feedPlace_lt {reg : FeedReg} : feedPlace reg < 10 := by cases reg <;> decide

theorem writeWhip_feed {reg : FeedReg} (ho : whipOwner s u = 0) : writeWhip s (Reg.whp u (feedPlace reg)) v 0xF
    = whipFeed (highKept s u reg v) u (fedBytes reg v) := by
  obtain ⟨unit, place⟩ := whp_index (q := u) (feedPlace_lt (reg := reg))
  unfold writeWhip
  dsimp only
  rw [unit, if_neg (not_not_intro ho), place]
  cases reg <;> rfl

theorem exec_whipFeed {reg : FeedReg} (hr : reaches s src (Reg.whp u 4) = true) (hd : getF s Reg.sysOwner 3 0 = 0)
    (ho : whipOwner s u = 0) : exec (.whipFeed src u reg v) s
      = .next (pinSettle (whipFeed (highKept s u reg v) u (fedBytes reg v))) := by
  have opened : Open s src (Reg.whp u (feedPlace reg)) :=
    ⟨(reaches_congr whp_ne_modeReq whp_ne_modeReq).trans hr, denied_of_no_deny hd⟩
  have place : exec (.whipFeed src u reg v) s = .next (regWrite s src (Reg.whp u (feedPlace reg)) v) := by cases reg <;> rfl
  rw [place, regWrite_whp opened feedPlace_lt, writeWhip_feed ho]

theorem whipFeed_room (h : (whipUnit s k).queue.length + bs.length ≤ 8) :
    whipFeed s k bs = setWhip s k { whipUnit s k with queue := (whipUnit s k).queue ++ bs } :=
  if_neg (Nat.not_lt.2 h)

theorem whipFeed_dropped (h : (whipUnit s k).queue.length + bs.length > 8) :
    whipFeed s k bs = setB (setWhip s k { whipUnit s k with poison := true }) (Reg.whp k 9) 4 true :=
  if_pos h

/-! ### A core clock of a unit (R844, R849) -/

/-- Unit u has processed byte b. -/
def byteTaken (s : State) (u : Nat) (b : Byte) (rest : List Byte) : State :=
  let w := whipUnit s u
  let crc := crcByte w.set.width w.set.poly.toNat w.set.refin w.crc.toNat b
  setWhip s u { w with
    crc := BitVec.ofNat 32 crc, result := BitVec.ofNat 32 (crcResult w.set crc), queue := rest,
    check := w.check.map (· - 1) }

theorem whipClock_empty (hq : (whipUnit s k).queue = []) : whipClock s k = s := by
  simp only [whipClock, hq]

theorem whipClock_byte (hq : (whipUnit s k).queue = b :: rest) : whipClock s k
    = if (whipUnit s k).check == some 1 then whipCompareNow (byteTaken s k b rest) k else byteTaken s k b rest := by
  simp only [whipClock, hq, byteTaken]

/-- The queued bytes are processed one a clock, and the last of them brings the compare. -/
theorem whipDrain_compared (queue : List Byte) : ∀ s : State, (whipUnit s u).queue = queue → queue ≠ [] →
    (whipUnit s u).check = some queue.length → Compared s u (whipDrain u queue.length s) := by
  induction queue with
  | nil => exact fun _ _ h => (h rfl).elim
  | cons b rest ih =>
    intro s hq _ hc
    have unit : whipUnit (byteTaken s u b rest) u = _ := whipUnit_setWhip
    have earlier : Compared (byteTaken s u b rest) u (whipDrain u rest.length (whipClock s u)) := by
      rw [whipClock_byte hq, hc]
      cases rest with
      | nil => exact whipCompareNow_compared (by rw [unit])
      | cons c rest => exact ih _ (by rw [unit]) (List.cons_ne_nil _ _) (by rw [unit, hc]; rfl)
    exact compared_of_earlier earlier (by rw [unit]) (by rw [unit]) (fun _ _ => rfl) rfl rfl

theorem exec_whipCompare {n : Nat} (hc : (whipUnit s u).check = some n) :
    exec (.whipCompare u) s = .next (whipDrain u n s) := by
  show execWhipCompare u s = _
  simp only [execWhipCompare, hc]

theorem exec_whipCompare_none (hc : (whipUnit s u).check = none) : exec (.whipCompare u) s = .next s := by
  show execWhipCompare u s = _
  simp only [execWhipCompare, hc]

/-! ### The statement -/

theorem whipStart_does (h : Open s src (Reg.whp u 0)) (ho : whipOwner s u = 0) (hc : bit v 1 = false)
    (lo : 1 ≤ fld v 21 16) (hi : fld v 21 16 ≤ 32) : Does (.whipStart src u v) s (fun t =>
      (whipUnit t u).set = ⟨fld v 21 16, getReg s (Reg.whp u 1), getReg s (Reg.whp u 2), getReg s (Reg.whp u 3), bit v 8, bit v 9⟩
      ∧ (whipUnit t u).crc.toNat = (getReg s (Reg.whp u 2)).toNat % 2 ^ fld v 21 16
      ∧ (whipUnit t u).queue = [] ∧ (whipUnit t u).poison = false ∧ (whipUnit t u).check = none
      ∧ (∀ k : Fin 4, k ≠ u → t.whip[k] = s.whip[k]) ∧ t.lay = s.lay ∧ t.mem = s.mem) := by
  refine ⟨_, exec_whipStart h ho hc, ?_⟩
  obtain ⟨whip, lay, mem, -⟩ := cfgWritten_effect (s := s) (k := u) (v := putBit v 0 true)
  obtain ⟨set, crc, queue, poison, check, others, lay', mem'⟩ := whipStart_effect (s := cfgWritten s u (putBit v 0 true)) (u := u)
  have small : (getReg s (Reg.whp u 2)).toNat % 2 ^ fld v 21 16 < 2 ^ 32 :=
    (Nat.mod_le _ _).trans_lt (getReg s (Reg.whp u 2)).isLt
  rw [whipUnit_congr pinSettle_whip, pinSettle_whip, pinSettle_lay, pinSettle_mem, set, crc, settings_cfgWritten lo hi]
  refine ⟨rfl, ?_, queue, poison, check, fun k hk => ?_, lay'.trans lay, mem'.trans mem⟩
  · rw [BitVec.toNat_ofNat, Nat.mod_eq_of_lt small]
  · rw [others k hk, whip]

theorem whipCheck_does (h : Open s src (Reg.whp u 0)) (ho : whipOwner s u = 0) (hc : bit v 0 = false) :
    ((whipUnit s u).queue = [] → Does (.whipCheck src u v) s (Compared s u))
    ∧ ((whipUnit s u).queue ≠ [] → Does (.whipCheck src u v) s (fun t =>
      whipUnit t u = { whipUnit s u with check := some (whipUnit s u).queue.length } ∧ t.lay = s.lay ∧ t.mem = s.mem)) := by
  obtain ⟨whip, lay, mem, regs⟩ := cfgWritten_effect (s := s) (k := u) (v := putBit v 1 true)
  have unit : whipUnit (cfgWritten s u (putBit v 1 true)) u = whipUnit s u := whipUnit_congr whip
  refine ⟨fun hq => ⟨_, exec_whipCheck h ho hc, ?_⟩, fun hq => ⟨_, exec_whipCheck h ho hc, ?_⟩⟩
  · rw [← unit] at hq
    rw [whipCheck_empty hq]
    exact compared_pinSettle (compared_of_earlier (whipCompareNow_compared hq) (by rw [unit]) (by rw [unit]) regs lay mem)
  · rw [← unit] at hq ⊢
    dsimp only
    rw [whipCheck_queued hq, whipUnit_congr pinSettle_whip, whipUnit_setWhip, pinSettle_lay, pinSettle_mem]
    exact ⟨rfl, lay, mem⟩

theorem whipFeed_does {reg : FeedReg} (hr : reaches s src (Reg.whp u 4) = true) (hd : getF s Reg.sysOwner 3 0 = 0)
    (ho : whipOwner s u = 0) :
    ((whipUnit s u).queue.length + (fedBytes reg v).length ≤ 8 → Does (.whipFeed src u reg v) s (fun t =>
      (whipUnit t u).queue = (whipUnit s u).queue ++ fedBytes reg v ∧ (whipUnit t u).crc = (whipUnit s u).crc
      ∧ (whipUnit t u).poison = (whipUnit s u).poison ∧ t.lay = s.lay ∧ t.mem = s.mem))
    ∧ ((whipUnit s u).queue.length + (fedBytes reg v).length > 8 → Does (.whipFeed src u reg v) s (fun t =>
      (whipUnit t u).queue = (whipUnit s u).queue ∧ (whipUnit t u).poison = true ∧ getB t (Reg.whp u 9) 4 = true
      ∧ t.lay = s.lay ∧ t.mem = s.mem)) := by
  obtain ⟨queue, crc, poison, lay, mem⟩ := highKept_effect (s := s) (u := u) (reg := reg) (v := v)
  rw [← queue]
  refine ⟨fun hl => ⟨_, exec_whipFeed hr hd ho, ?_⟩, fun hl => ⟨_, exec_whipFeed hr hd ho, ?_⟩⟩ <;> dsimp only
  · rw [whipFeed_room hl, whipUnit_congr pinSettle_whip, whipUnit_setWhip, pinSettle_lay, pinSettle_mem]
    exact ⟨rfl, crc, poison, lay, mem⟩
  · rw [whipFeed_dropped hl, whipUnit_congr (pinSettle_whip.trans setB_whip), whipUnit_setWhip,
      getB_pinSettle whp_ne_shared.1, pinSettle_lay, pinSettle_mem]
    exact ⟨rfl, rfl, getB_setB (by decide), lay, mem⟩

theorem exec_whipByte (hq : (whipUnit s u).queue = b :: rest) (hc : (whipUnit s u).check ≠ some 1) :
    exec (.whipByte u) s = .next (byteTaken s u b rest) := by
  refine congrArg Host.Outcome.next ((whipClock_byte hq).trans (if_neg ?_))
  simpa using hc

/-- Settles O56. The writes go to their register's meaning and each clause is read off what it leaves; the compare that waits
comes by induction on the queue; the CRC's clauses are those of its bits. -/
theorem whippingUnitsAndCrcSteps : Obligations.WhippingUnitsAndCrcSteps := by
  unfold Obligations.WhippingUnitsAndCrcSteps
  refine ⟨⟨fun s src u v h ho => ⟨whipStart_does h ho, fun hc => (whipCheck_does h ho hc).1,
      fun hc => (whipCheck_does h ho hc).2⟩,
    fun s src u v h ho c hc => ⟨_, exec_whip_owned h ho hc, pinSettle_butPin⟩,
    fun s src u reg v hr hd ho => whipFeed_does hr hd ho,
    fun s u => ⟨fun b rest hq hc => ⟨_, exec_whipByte hq hc, whipUnit_setWhip, rfl, fun k hk => setWhip_others hk⟩,
      fun hq => congrArg Host.Outcome.next (whipClock_empty hq)⟩,
    fun s u hc hq => ⟨_, exec_whipCompare hc, whipDrain_compared _ s rfl hq hc⟩,
    fun s u hc => exec_whipCompare_none hc⟩,
    fun w v i h => nbit_reflect h, fun w v => reflect_lt, fun w poly crc b _ _ i h => nbit_crcStep h,
    fun w poly refin crc x => crcByte_eq_foldl⟩

end Sys2Proof.Machine
end
